-- ==== Sys2Proof/Word.lean ====
section
/-! DEFINITION. The three widths of the packet engine's values (spec 00_scope.md R11: every value is unsigned). -/

namespace Sys2Proof

/-- An 8-bit value: a payload byte, a code, operand field A. -/
abbrev Byte := BitVec 8

/-- A 16-bit value: HEADER, CHECKSUM, LENGTH, operand field B. -/
abbrev Half := BitVec 16

/-- A 32-bit value: a command word, a result word, a value word, CURSOR. -/
abbrev Word := BitVec 32

end Sys2Proof
end

