-- ==== Sys2Proof/Config.lean ====
section
/-! DEFINITION. The parameters of one packet engine (spec 00_scope.md R8, R9) and its fixed constants (R10, R75).
They are not machine state (10_state.md R36): no command changes them. The spec leaves no value open, so there is no
free value here. -/

namespace Sys2Proof

/-- What CONSUME_BYTE does when STATUS is already terminal (00_scope.md R9, 41_construction.md R131). -/
inductive PostTerminalMode where
  | cursorRules
  | fault
  deriving DecidableEq, Repr

/-- The parameters chosen when the engine is created. The 16 bits of `capacity` are exactly the range
0 to 65535 of 00_scope.md R8. -/
structure Config where
  capacity : Half
  postTerminalMode : PostTerminalMode
  deriving DecidableEq, Repr

/-- The configuration of State.reset. DESIGN CHOICE (log 2): the spec leaves CAPACITY to the creator; 108 is the value
of both worked examples of the source (95_test_vectors.md W1, W2). CURSOR_RULES is the spec's default (R9). -/
def Config.created : Config := { capacity := 108, postTerminalMode := .cursorRules }

/-- SYNC, the value of the sync header (00_scope.md R10). -/
def sync : Half := 0x5555

/-- HEADER_SIZE, the number of frame bytes before the payload (R10). -/
def headerSize : Nat := 8

/-- CRC_WINDOW_START, the frame offset at which the checksum window begins (R10). -/
def crcWindowStart : Nat := 4

/-- DATAID_NAME_SIZE (R10). -/
def dataIdNameSize : Nat := 30

/-- DATAID_SIZE (R10). -/
def dataIdSize : Nat := 32

/-- The reserved request codes (30_encoding.md R75). -/
def requestEvent : Byte := 0x00
def requestId : Byte := 0x01

/-- The reserved response codes (30_encoding.md R75). The engine itself writes only SUCCESS and ERROR. -/
def responseSuccess : Byte := 0x00
def responseBusy : Byte := 0x01
def responsePacketOverflow : Byte := 0xFC
def responseUnknownRequest : Byte := 0xFD
def responseChecksumError : Byte := 0xFE
def responseError : Byte := 0xFF

end Sys2Proof
end

