-- ==== Sys2Proof/Syntax.lean ====
section
/-! DEFINITION. The 25 commands of spec 30_encoding.md R74 (opcode_table.json), one constructor per row, with their
operands as R80 assembles them and their bursts as R72 gives them. -/

namespace Sys2Proof

inductive Instr where
  /-- CHECKSUM (R104): `store` is A[0]. -/
  | checksum (store : Bool)
  /-- VALIDATE (R106). -/
  | validate
  /-- CONSUME_BYTE (R120): the received byte. -/
  | consumeByte (b : Byte)
  /-- NEXT_BYTE (R150). -/
  | nextByte
  /-- RESET_CURSOR (R152). -/
  | resetCursor
  /-- FRAME_BYTE (R154): a 24-bit frame offset. -/
  | frameByte (index : BitVec 24)
  /-- FRAME_LENGTH (R156). -/
  | frameLength
  /-- PACK (R170). -/
  | pack
  /-- SET_PAYLOAD (R172): the burst; operand n is its length. -/
  | setPayload (bytes : List Byte)
  /-- RESPOND_WITH_DATA (R175): the request code and the burst. -/
  | respondWithData (request : Byte) (bytes : List Byte)
  /-- RESPOND_WITH_ERROR (R178): the request and response codes. -/
  | respondWithError (request code : Byte)
  /-- RESPOND_WITH_IDENTITY (R192): ascii_mode and the DataId record. -/
  | respondWithIdentity (ascii : Bool) (record : List Byte)
  /-- DATAID_DECODE (R196). -/
  | dataidDecode
  /-- SET_REQUEST (R210). -/
  | setRequest (v : Byte)
  /-- SET_RESPONSE (R211). -/
  | setResponse (v : Byte)
  /-- GET_HEADER (R212). -/
  | getHeader
  /-- GET_CHECKSUM (R213). -/
  | getChecksum
  /-- GET_REQUEST (R214). -/
  | getRequest
  /-- GET_RESPONSE (R215). -/
  | getResponse
  /-- GET_DATA_LENGTH (R216). -/
  | getDataLength
  /-- GET_DATA_BYTE (R217): a 16-bit buffer index. -/
  | getDataByte (index : Half)
  /-- GET_STATUS (R218). -/
  | getStatus
  /-- GET_CAPACITY (R219). -/
  | getCapacity
  /-- RESET_LAZY (R220). -/
  | resetLazy
  /-- RESET_FULL (R221). -/
  | resetFull
  deriving DecidableEq, Repr

end Sys2Proof
end

