-- ==== Sys2Proof/WellFormed.lean ====
section
/-! DEFINITION. Which terms of `Instr` are commands a host can send: the burst has a length that the word can carry
(spec 30_encoding.md R72). Every other operand fills its field exactly. -/

namespace Sys2Proof

/-- The burst of SET_PAYLOAD and RESPOND_WITH_DATA has 0 to 65535 bytes; that of RESPOND_WITH_IDENTITY exactly 32 (R72). -/
def Instr.wellFormed : Instr → Bool
  | .setPayload bytes => decide (bytes.length ≤ 65535)
  | .respondWithData _ bytes => decide (bytes.length ≤ 65535)
  | .respondWithIdentity _ record => decide (record.length = dataIdSize)
  | .checksum _ => true
  | .validate => true
  | .consumeByte _ => true
  | .nextByte => true
  | .resetCursor => true
  | .frameByte _ => true
  | .frameLength => true
  | .pack => true
  | .respondWithError _ _ => true
  | .dataidDecode => true
  | .setRequest _ => true
  | .setResponse _ => true
  | .getHeader => true
  | .getChecksum => true
  | .getRequest => true
  | .getResponse => true
  | .getDataLength => true
  | .getDataByte _ => true
  | .getStatus => true
  | .getCapacity => true
  | .resetLazy => true
  | .resetFull => true

end Sys2Proof
end

