-- ==== Sys2Proof/Decode.lean ====
section
/-! DEFINITION. The command decoder and encoder (spec 30_encoding.md R71, R72, R74, R78 to R81).

A command is 4 bytes of word and its burst (R81). The byte order of the word on a bus is outside the engine (R71);
DESIGN CHOICE (log 1): the host's byte stream carries the word least significant byte first. -/

namespace Sys2Proof

/-- The rows of 30_encoding.md R74 by name. -/
inductive Opcode where
  | checksum | validate
  | consumeByte
  | nextByte | resetCursor | frameByte | frameLength
  | pack | setPayload | respondWithData | respondWithError
  | respondWithIdentity | dataidDecode
  | setRequest | setResponse
  | getHeader | getChecksum | getRequest | getResponse | getDataLength | getDataByte | getStatus | getCapacity
  | resetLazy | resetFull
  deriving DecidableEq, Repr

/-- Why a word is illegal: the cases (a), (b) and (c) of R78. -/
inductive DecodeError where
  /-- (a) OP is not in R74. -/
  | unknownOpcode
  /-- (b) a field or bit that R74 marks 0 is not 0. -/
  | nonZeroField
  /-- (c) RESPOND_WITH_IDENTITY with B other than 0x0020. -/
  | badIdentityLength
  deriving DecidableEq, Repr

/-- What the head of the host's byte stream is. -/
inductive Decoded where
  /-- A whole command, and the bytes after it. -/
  | command (i : Instr) (rest : List Byte)
  /-- An illegal word, and the bytes after the word: it consumes no burst (R78). -/
  | illegal (why : DecodeError) (rest : List Byte)
  /-- The word or its burst has not arrived in full. -/
  | incomplete
  deriving DecidableEq, Repr

/-- Every row, in the order of R74. -/
def Opcode.all : List Opcode :=
  [.checksum, .validate, .consumeByte, .nextByte, .resetCursor, .frameByte, .frameLength, .pack, .setPayload,
   .respondWithData, .respondWithError, .respondWithIdentity, .dataidDecode, .setRequest, .setResponse, .getHeader,
   .getChecksum, .getRequest, .getResponse, .getDataLength, .getDataByte, .getStatus, .getCapacity, .resetLazy, .resetFull]

/-- OP, bits 31:24 of the word (R74). -/
def Opcode.code : Opcode → Byte
  | .checksum => 0x01
  | .validate => 0x02
  | .consumeByte => 0x10
  | .nextByte => 0x20
  | .resetCursor => 0x21
  | .frameByte => 0x22
  | .frameLength => 0x23
  | .pack => 0x30
  | .setPayload => 0x31
  | .respondWithData => 0x32
  | .respondWithError => 0x33
  | .respondWithIdentity => 0x40
  | .dataidDecode => 0x41
  | .setRequest => 0x50
  | .setResponse => 0x51
  | .getHeader => 0x52
  | .getChecksum => 0x53
  | .getRequest => 0x54
  | .getResponse => 0x55
  | .getDataLength => 0x56
  | .getDataByte => 0x57
  | .getStatus => 0x58
  | .getCapacity => 0x59
  | .resetLazy => 0x5E
  | .resetFull => 0x5F

/-- The bits of A and B, together bits 23:0, that R74 marks 0 for the row. -/
def Opcode.zeroBits : Opcode → BitVec 24
  | .checksum => 0xFEFFFF
  | .consumeByte => 0x00FFFF
  | .setRequest => 0x00FFFF
  | .setResponse => 0x00FFFF
  | .frameByte => 0x000000
  | .respondWithData => 0x000000
  | .setPayload => 0xFF0000
  | .getDataByte => 0xFF0000
  | .respondWithError => 0x00FF00
  | .respondWithIdentity => 0xFE0000
  | .validate => 0xFFFFFF
  | .nextByte => 0xFFFFFF
  | .resetCursor => 0xFFFFFF
  | .frameLength => 0xFFFFFF
  | .pack => 0xFFFFFF
  | .dataidDecode => 0xFFFFFF
  | .getHeader => 0xFFFFFF
  | .getChecksum => 0xFFFFFF
  | .getRequest => 0xFFFFFF
  | .getResponse => 0xFFFFFF
  | .getDataLength => 0xFFFFFF
  | .getStatus => 0xFFFFFF
  | .getCapacity => 0xFFFFFF
  | .resetLazy => 0xFFFFFF
  | .resetFull => 0xFFFFFF

/-- The fields of the command word (R71). -/
def wordOp (w : Word) : Byte := w.extractLsb' 24 8
def wordA (w : Word) : Byte := w.extractLsb' 16 8
def wordB (w : Word) : Half := w.extractLsb' 0 16
/-- The field pair (A, B) as one 24-bit number (R80). -/
def wordAB (w : Word) : BitVec 24 := w.extractLsb' 0 24

/-- The row a word belongs to, or why it is illegal (R78, R79): a function of the word alone. -/
def decodeWord (w : Word) : Except DecodeError Opcode :=
  match Opcode.all.find? (fun op => op.code == wordOp w) with
  | none => .error .unknownOpcode
  | some op =>
    if wordAB w &&& op.zeroBits ≠ 0 then .error .nonZeroField
    else if op = .respondWithIdentity ∧ wordB w ≠ 0x0020 then .error .badIdentityLength
    else .ok op

/-- The number of burst bytes, a function of the row and B (R72, R79). -/
def burstLength (op : Opcode) (b : Half) : Nat :=
  match op with
  | .setPayload => b.toNat
  | .respondWithData => b.toNat
  | .respondWithIdentity => b.toNat
  | .checksum | .validate | .consumeByte | .nextByte | .resetCursor | .frameByte | .frameLength | .pack
  | .respondWithError | .dataidDecode | .setRequest | .setResponse | .getHeader | .getChecksum | .getRequest
  | .getResponse | .getDataLength | .getDataByte | .getStatus | .getCapacity | .resetLazy | .resetFull => 0

/-- Operand assembly (R80). -/
def assemble (op : Opcode) (w : Word) (burst : List Byte) : Instr :=
  match op with
  | .checksum => .checksum (w.getLsbD 16)
  | .validate => .validate
  | .consumeByte => .consumeByte (wordA w)
  | .nextByte => .nextByte
  | .resetCursor => .resetCursor
  | .frameByte => .frameByte (wordAB w)
  | .frameLength => .frameLength
  | .pack => .pack
  | .setPayload => .setPayload burst
  | .respondWithData => .respondWithData (wordA w) burst
  | .respondWithError => .respondWithError (wordA w) (w.extractLsb' 0 8)
  | .respondWithIdentity => .respondWithIdentity (w.getLsbD 16) burst
  | .dataidDecode => .dataidDecode
  | .setRequest => .setRequest (wordA w)
  | .setResponse => .setResponse (wordA w)
  | .getHeader => .getHeader
  | .getChecksum => .getChecksum
  | .getRequest => .getRequest
  | .getResponse => .getResponse
  | .getDataLength => .getDataLength
  | .getDataByte => .getDataByte (wordB w)
  | .getStatus => .getStatus
  | .getCapacity => .getCapacity
  | .resetLazy => .resetLazy
  | .resetFull => .resetFull

/-- The first `n` bytes of the stream and the bytes after them, when `n` bytes are there. -/
def takeBurst : Nat → List Byte → Option (List Byte × List Byte)
  | 0, bs => some ([], bs)
  | _ + 1, [] => none
  | n + 1, b :: bs =>
    match takeBurst n bs with
    | none => none
    | some (burst, rest) => some (b :: burst, rest)

/-- The word whose bytes are `b0` (least significant) to `b3`. -/
def wordOfBytes (b0 b1 b2 b3 : Byte) : Word := b3 ++ b2 ++ b1 ++ b0

/-- The four bytes of a word in stream order. -/
def wordBytes (w : Word) : List Byte :=
  [w.extractLsb' 0 8, w.extractLsb' 8 8, w.extractLsb' 16 8, w.extractLsb' 24 8]

/-- Decode the command at the head of the host's byte stream: total on every list of bytes. -/
def decode : List Byte → Decoded
  | b0 :: b1 :: b2 :: b3 :: bytes =>
    match decodeWord (wordOfBytes b0 b1 b2 b3) with
    | .error why => .illegal why bytes
    | .ok op =>
      match takeBurst (burstLength op (wordB (wordOfBytes b0 b1 b2 b3))) bytes with
      | none => .incomplete
      | some (burst, rest) => .command (assemble op (wordOfBytes b0 b1 b2 b3) burst) rest
  | _ => .incomplete

/-- `n` bytes of the number `w`, least significant first. -/
def bytesOfNat : Nat → Nat → List Byte
  | 0, _ => []
  | n + 1, w => BitVec.ofNat 8 w :: bytesOfNat n (w / 256)

/-- The bytes of an instruction given as opcode_table.json numbers its bits: `nbits` bits of `w`, and every bit above
them (the rest of the word, the burst) zero. -/
def tableBytes (nbits w : Nat) : List Byte :=
  let word : Word := BitVec.ofNat 32 (w % 2 ^ nbits)
  let burst : Nat :=
    match decodeWord word with
    | .error _ => 0
    | .ok op => burstLength op (wordB word)
  bytesOfNat (max (nbits / 8) (4 + burst)) (w % 2 ^ nbits)

/-- The instruction the decoder reads from those bytes. -/
def decodeTableWord (nbits w : Nat) : Option Instr :=
  match decode (tableBytes nbits w) with
  | .command i _ => some i
  | .illegal _ _ => none
  | .incomplete => none

/-! ## The encoder -/

/-- The row of a command. -/
def Instr.opcode : Instr → Opcode
  | .checksum _ => .checksum
  | .validate => .validate
  | .consumeByte _ => .consumeByte
  | .nextByte => .nextByte
  | .resetCursor => .resetCursor
  | .frameByte _ => .frameByte
  | .frameLength => .frameLength
  | .pack => .pack
  | .setPayload _ => .setPayload
  | .respondWithData _ _ => .respondWithData
  | .respondWithError _ _ => .respondWithError
  | .respondWithIdentity _ _ => .respondWithIdentity
  | .dataidDecode => .dataidDecode
  | .setRequest _ => .setRequest
  | .setResponse _ => .setResponse
  | .getHeader => .getHeader
  | .getChecksum => .getChecksum
  | .getRequest => .getRequest
  | .getResponse => .getResponse
  | .getDataLength => .getDataLength
  | .getDataByte _ => .getDataByte
  | .getStatus => .getStatus
  | .getCapacity => .getCapacity
  | .resetLazy => .resetLazy
  | .resetFull => .resetFull

/-- The fields A and B of a command as one 24-bit number (R74, R80). -/
def Instr.operands : Instr → BitVec 24
  | .checksum store => BitVec.zeroExtend 8 (BitVec.ofBool store) ++ (0 : Half)
  | .consumeByte b => b ++ (0 : Half)
  | .frameByte index => index
  | .setPayload bytes => (0 : Byte) ++ BitVec.ofNat 16 bytes.length
  | .respondWithData request bytes => request ++ BitVec.ofNat 16 bytes.length
  | .respondWithError request code => request ++ BitVec.zeroExtend 16 code
  | .respondWithIdentity ascii _ => BitVec.zeroExtend 8 (BitVec.ofBool ascii) ++ (0x0020 : Half)
  | .setRequest v => v ++ (0 : Half)
  | .setResponse v => v ++ (0 : Half)
  | .getDataByte index => (0 : Byte) ++ index
  | .validate => 0
  | .nextByte => 0
  | .resetCursor => 0
  | .frameLength => 0
  | .pack => 0
  | .dataidDecode => 0
  | .getHeader => 0
  | .getChecksum => 0
  | .getRequest => 0
  | .getResponse => 0
  | .getDataLength => 0
  | .getStatus => 0
  | .getCapacity => 0
  | .resetLazy => 0
  | .resetFull => 0

/-- The burst of a command (R72). -/
def Instr.burst : Instr → List Byte
  | .setPayload bytes => bytes
  | .respondWithData _ bytes => bytes
  | .respondWithIdentity _ record => record
  | .checksum _ => []
  | .validate => []
  | .consumeByte _ => []
  | .nextByte => []
  | .resetCursor => []
  | .frameByte _ => []
  | .frameLength => []
  | .pack => []
  | .respondWithError _ _ => []
  | .dataidDecode => []
  | .setRequest _ => []
  | .setResponse _ => []
  | .getHeader => []
  | .getChecksum => []
  | .getRequest => []
  | .getResponse => []
  | .getDataLength => []
  | .getDataByte _ => []
  | .getStatus => []
  | .getCapacity => []
  | .resetLazy => []
  | .resetFull => []

/-- The command word (R71). -/
def encodeWord (i : Instr) : Word := i.opcode.code ++ i.operands

/-- The bytes a host sends for a command: the word, then the burst (R72, R81). -/
def encode (i : Instr) : List Byte := wordBytes (encodeWord i) ++ i.burst

end Sys2Proof
end

