-- ==== Sys2Proof/Machine/State.lean ====
section
/-! DEFINITION. The state of one packet engine: the nine registers of spec 10_state.md R20, the parameters it was
created with, and the host interface as data (the command bytes not yet taken, the results returned). -/

namespace Sys2Proof.Machine

/-- The statuses of 30_encoding.md R76. Code 7 is reserved and never produced, so it has no constructor. -/
inductive Status where
  | ok
  | packetBuilding
  | packetReceived
  | checksumError
  | headerNotFound
  | packetOverflow
  | emissionFinished
  deriving DecidableEq, Repr

/-- The command faults of 30_encoding.md R77. A command fault is a NEXT state (log 4), not a stop of the machine. -/
inductive FaultCode where
  | illegalCommand
  | indexOutOfRange
  | lengthExceedsCapacity
  | unsupported
  | nameTooLong
  | shortPayload
  | consumeAfterTerminal
  deriving DecidableEq, Repr

/-- The result of one command (30_encoding.md R73, 60_exceptions.md R240): a status outcome with its value and, for
DATAID_DECODE, its 32-byte record; or a command fault. The words R0 and R1 are `Result.r0` and `Result.r1`. -/
inductive Result where
  | status (st : Status) (value : Word) (record : Option (List Byte))
  | fault (code : FaultCode)
  deriving DecidableEq, Repr

/-- The payload buffer as a list of (index, byte) cells, in the canonical form of `Memory.wf`. -/
abbrev Memory := List Host.Cell

/-- The nine registers of 10_state.md R20, under the spec's names. -/
structure Regs where
  header : Half
  checksum : Half
  request : Byte
  response : Byte
  length : Half
  data : Memory
  cursor : Word
  dataCursor : Half
  status : Status
  deriving DecidableEq, Repr

/-- One packet engine and its host interface. `cfg` is its configuration (R36), which no step changes. `pending` is
what the host has issued and the engine has not taken, oldest byte first (log 1). `results` is what the engine has
returned, newest first (R291, log 3); nothing is ever removed from it, so it is also the record of faults (R245). -/
structure State where
  cfg : Config
  regs : Regs
  pending : List Byte
  results : List Result
  deriving DecidableEq, Repr

/-- Why the machine stops. Nothing in the spec stops the engine: a command fault leaves it "ready for the next
command" (60_exceptions.md R245), so no reason exists and nothing raises one. -/
inductive Fault where
  deriving DecidableEq, Repr

/-- Why an instruction has no meaning in the model. -/
inductive Refusal where
  /-- Raised by exec's arm of an instruction that has no meaning yet; no arm raises it. Safe. -/
  | notModelled (mnemonic : String)
  deriving DecidableEq, Repr

/-- The registers after creation (10_state.md R35, 70_reset_and_hazards.md R270). -/
def Regs.reset : Regs :=
  { header := 0, checksum := 0, request := 0, response := 0, length := 0, data := [], cursor := 0, dataCursor := 0,
    status := .ok }

/-- An engine just created with the parameters `cfg`, waiting for the host's first command (R270, R272). -/
def State.init (cfg : Config) : State := { cfg := cfg, regs := Regs.reset, pending := [], results := [] }

/-- The machine right after reset, with the configuration of log 2. -/
def State.reset : State := State.init Config.created

end Sys2Proof.Machine
end

