-- ==== Sys2Proof/Machine/Ops.lean ====
section
/-! DEFINITION. The operations the meanings share: the payload buffer, the append of the response helpers, how a
command returns, how it raises a command fault, and how the next command is fetched. -/

namespace Sys2Proof.Machine

/-! ## The payload buffer -/

/-- What a byte that no cell lists reads as: the spec's reset contents (70_reset_and_hazards.md R270). -/
def Memory.unlisted : Byte := 0x00

/-- The canonical form: indices strictly rising, and no cell that holds what an unlisted byte reads as. -/
abbrev Memory.wf (m : Memory) : Prop := m.Pairwise (fun c d => c.1 < d.1) ∧ ∀ c ∈ m, c.2 ≠ Memory.unlisted

/-- Byte `a` of the buffer. -/
def Memory.read : Memory → Nat → Byte
  | [], _ => Memory.unlisted
  | c :: m, a => if c.1 = a then c.2 else Memory.read m a

/-- The cell for `a` holding `b`, left out when `b` is what an unlisted byte reads as. -/
def Memory.cell (a : Nat) (b : Byte) : Memory := if b = Memory.unlisted then [] else [(a, b)]

/-- Write byte `a`, keeping the canonical form. -/
def Memory.write : Memory → Nat → Byte → Memory
  | [], a, b => Memory.cell a b
  | c :: m, a, b =>
    if a < c.1 then Memory.cell a b ++ c :: m
    else if a = c.1 then Memory.cell a b ++ m
    else c :: Memory.write m a b

/-- The `n` bytes from `a` on. -/
def Memory.readRun (m : Memory) : Nat → Nat → List Byte
  | _, 0 => []
  | a, n + 1 => Memory.read m a :: Memory.readRun m (a + 1) n

/-- Write `bytes` at consecutive indices from `a` on (20_memory.md R57). -/
def Memory.writeRun (m : Memory) : Nat → List Byte → Memory
  | _, [] => m
  | a, b :: bytes => Memory.writeRun (Memory.write m a b) (a + 1) bytes

/-- DATA[i], defined only for i < CAPACITY (00_scope.md R12, 10_state.md R26). -/
def Regs.dataByte (cfg : Config) (r : Regs) (i : Nat) : Option Byte :=
  if i < cfg.capacity.toNat then some (r.data.read i) else none

/-! ## Registers -/

/-- SET_PAYLOAD's append (43_packing_and_response.md R172): `none` when the bytes do not fit, and then nothing is
written. The comparison is on natural numbers, without wrap. -/
def Regs.append (cfg : Config) (r : Regs) (bytes : List Byte) : Option Regs :=
  if cfg.capacity.toNat < r.length.toNat + bytes.length then none
  else some { r with
    data := r.data.writeRun r.length.toNat bytes
    length := BitVec.ofNat 16 (r.length.toNat + bytes.length) }

/-- Every register but DATA at its reset value (45_fields_and_resets.md R220). -/
def Regs.clearAllButData (r : Regs) : Regs := { Regs.reset with data := r.data }

/-! ## How a command ends (00_scope.md R13) -/

/-- `return (ST, V)`: the command's register writes take effect and the host is given the result. -/
def State.reply (s : State) (r : Regs) (st : Status) (value : Word) : Host.Outcome State Fault Refusal :=
  .next { s with regs := r, results := .status st value none :: s.results }

/-- `return (ST, V) with record rec` (44_dataid.md R196). -/
def State.replyRecord (s : State) (r : Regs) (st : Status) (value : Word) (record : List Byte) :
    Host.Outcome State Fault Refusal :=
  .next { s with regs := r, results := .status st value (some record) :: s.results }

/-- TAKING A COMMAND FAULT, `raise Fault(code)` (60_exceptions.md R245): no register is written, the burst is gone with
the command, the host is given the fault result, and the engine is ready for the next command. The record of the fault
is the result itself, which nothing removes. There is no handler, no saved state and so no return from a fault: the
next command simply runs (R251). -/
def State.raise (s : State) (code : FaultCode) : Host.Outcome State Fault Refusal :=
  .next { s with results := .fault code :: s.results }

/-! ## The host's command stream -/

/-- The next command of the host's stream. -/
def State.fetch (s : State) : Decoded := decode s.pending

/-- The state once the engine has taken a command and `rest` of the stream is left. -/
def State.taken (s : State) (rest : List Byte) : State := { s with pending := rest }

/-- With no whole command to take, the engine holds its state (60_exceptions.md R259). -/
def State.idle (s : State) : Host.Outcome State Fault Refusal := .next s

/-- An illegal word raises IllegalCommand (30_encoding.md R78). -/
def State.raiseIllegal (s : State) : Host.Outcome State Fault Refusal := s.raise .illegalCommand

end Sys2Proof.Machine
end

