-- ==== Sys2Proof/Machine/Operands.lean ====
section
/-! DEFINITION. The views of the registers that commands read: the bytes of a 16-bit field, the frame byte, the
checksum window (spec 20_memory.md R51 to R53, 40_checksum.md R101). -/

namespace Sys2Proof.Machine

/-- FIELD[7:0]. -/
def lowByte (h : Half) : Byte := h.extractLsb' 0 8

/-- FIELD[15:8]. -/
def highByte (h : Half) : Byte := h.extractLsb' 8 8

/-- FIELD <- zext_16(b): what the low byte of a received field writes (41_construction.md R122, R123, R125). -/
def setLow (b : Byte) : Half := BitVec.zeroExtend 16 b

/-- FIELD[15:8] <- b: what the high byte of a received field writes. -/
def setHigh (h : Half) (b : Byte) : Half := b ++ lowByte h

/-- HEADER_SIZE + LENGTH, the number of bytes of the frame (20_memory.md R52). -/
def Regs.frameLength (r : Regs) : Nat := headerSize + r.length.toNat

/-- FrameByte(o) for o < HEADER_SIZE + LENGTH (20_memory.md R53); `none` is its LengthExceedsCapacity arm. -/
def Regs.frameByte (cfg : Config) (r : Regs) : Nat → Option Byte
  | 0 => some (lowByte r.header)
  | 1 => some (highByte r.header)
  | 2 => some (lowByte r.checksum)
  | 3 => some (highByte r.checksum)
  | 4 => some r.request
  | 5 => some r.response
  | 6 => some (lowByte r.length)
  | 7 => some (highByte r.length)
  | i + 8 => r.dataByte cfg i

/-- Frame(), the bulk view as one function (42_emission.md R155); `none` when one of its bytes faults. -/
def Regs.frame (cfg : Config) (r : Regs) : Option (List Byte) :=
  (List.range r.frameLength).mapM (r.frameByte cfg)

/-- The bytes of Window() when LENGTH <= CAPACITY (40_checksum.md R101). -/
def Regs.windowBytes (r : Regs) : List Byte :=
  [r.request, r.response, lowByte r.length, highByte r.length] ++ r.data.readRun 0 r.length.toNat

/-- Window() (40_checksum.md R101); `none` is its LengthExceedsCapacity fault. -/
def Regs.window (cfg : Config) (r : Regs) : Option (List Byte) :=
  if cfg.capacity.toNat < r.length.toNat then none else some r.windowBytes

end Sys2Proof.Machine
end

