-- ==== Sys2Proof/Machine/Crc.lean ====
section
/-! DEFINITION. The CRC-16/ARC generator (spec 40_checksum.md R100 to R105): a pure function of its input bytes. -/

namespace Sys2Proof.Machine

/-- One of the eight steps of R103: shift right, and XOR 0xA001 when a one is shifted out. -/
def crcShift (c : Half) : Half := if c.getLsbD 0 then (c >>> 1) ^^^ 0xA001 else c >>> 1

/-- Eight steps. -/
def crcShift8 (c : Half) : Half := crcShift (crcShift (crcShift (crcShift (crcShift (crcShift (crcShift (crcShift c)))))))

/-- TABLE[i] (R103). -/
def crcTable (i : Byte) : Half := crcShift8 (BitVec.zeroExtend 16 i)

/-- The loop body of R102: the index is the low byte of `crc ^ b`. -/
def crcUpdate (crc : Half) (b : Byte) : Half := crcTable (lowByte (crc ^^^ BitVec.zeroExtend 16 b)) ^^^ (crc >>> 8)

/-- CRC16(bytes) (R102). -/
def crc16 (bytes : List Byte) : Half := bytes.foldl crcUpdate 0

/-- The bitwise loop of R105. -/
def crc16Bitwise (bytes : List Byte) : Half := bytes.foldl (fun crc b => crcShift8 (crc ^^^ BitVec.zeroExtend 16 b)) 0

/-- The packet is packed (00_scope.md R15), where LENGTH <= CAPACITY. A predicate, not stored. -/
def Regs.packed (r : Regs) : Prop := r.header = sync ∧ r.checksum = crc16 r.windowBytes

/-- What PACK writes (43_packing_and_response.md R170), where LENGTH <= CAPACITY. -/
def Regs.stamp (r : Regs) : Regs := { r with checksum := crc16 r.windowBytes, header := sync }

end Sys2Proof.Machine
end

