-- ==== Sys2Proof/Machine/Checksum.lean ====
section
/-! DEFINITION. CHECKSUM and VALIDATE (spec 40_checksum.md R104, R106). -/

namespace Sys2Proof.Machine

/-- CHECKSUM (R104). -/
def execChecksum (store : Bool) (s : State) : Host.Outcome State Fault Refusal :=
  match s.regs.window s.cfg with
  | none => s.raise .lengthExceedsCapacity
  | some window =>
    s.reply (if store then { s.regs with checksum := crc16 window } else s.regs) .ok (BitVec.zeroExtend 32 (crc16 window))

/-- The outcome of comparing a CRC with CHECKSUM (R106, 41_construction.md R128). -/
def Regs.verdict (r : Regs) (crc : Half) : Status := if crc = r.checksum then .packetReceived else .checksumError

/-- VALIDATE (R106): HEADER is not checked. -/
def execValidate (s : State) : Host.Outcome State Fault Refusal :=
  match s.regs.window s.cfg with
  | none => s.raise .lengthExceedsCapacity
  | some window =>
    s.reply { s.regs with status := s.regs.verdict (crc16 window) } (s.regs.verdict (crc16 window)) 0

end Sys2Proof.Machine
end

