-- ==== Sys2Proof/Machine/Flags.lean ====
section
/-! DEFINITION. STATUS, the only flag-like state (spec 10_state.md R34), and the words of a result (30_encoding.md R73). -/

namespace Sys2Proof.Machine

/-- The 3-bit status codes (30_encoding.md R76). -/
def Status.code : Status → BitVec 3
  | .ok => 0
  | .packetBuilding => 1
  | .packetReceived => 2
  | .checksumError => 3
  | .headerNotFound => 4
  | .packetOverflow => 5
  | .emissionFinished => 6

/-- Terminal(STATUS) (00_scope.md R14). -/
def Status.terminal : Status → Bool
  | .packetReceived => true
  | .checksumError => true
  | .headerNotFound => true
  | .packetOverflow => true
  | .ok => false
  | .packetBuilding => false
  | .emissionFinished => false

/-- The fault codes (30_encoding.md R77). -/
def FaultCode.code : FaultCode → Byte
  | .illegalCommand => 0x01
  | .indexOutOfRange => 0x02
  | .lengthExceedsCapacity => 0x03
  | .unsupported => 0x04
  | .nameTooLong => 0x05
  | .shortPayload => 0x06
  | .consumeAfterTerminal => 0x07

/-- The result word R0: F, four zero bits, ST, FC, sixteen zero bits (R73). -/
def Result.r0 : Result → Word
  | .status st _ _ => (0 : BitVec 1) ++ (0 : BitVec 4) ++ st.code ++ (0 : Byte) ++ (0 : Half)
  | .fault code => (1 : BitVec 1) ++ (0 : BitVec 4) ++ (0 : BitVec 3) ++ code.code ++ (0 : Half)

/-- The value word R1 (R73). -/
def Result.r1 : Result → Word
  | .status _ value _ => value
  | .fault _ => 0

/-- The record that comes with a result, if any (R73). -/
def Result.record? : Result → Option (List Byte)
  | .status _ _ record => record
  | .fault _ => none

/-- Bit F of the result word: is the result a command fault? -/
def Result.isFault : Result → Bool
  | .status _ _ _ => false
  | .fault _ => true

end Sys2Proof.Machine
end

