-- ==== Sys2Proof/Machine/Construction.lean ====
section
/-! DEFINITION. CONSUME_BYTE, the construction state machine (spec 41_construction.md R120 to R135). -/

namespace Sys2Proof.Machine

/-- A sync byte that does not match: only CURSOR and STATUS are written (R122). -/
def Regs.headerNotFound (r : Regs) : Regs := { r with cursor := 0, status := .headerNotFound }

/-- A byte that does not end the attempt (R129). -/
def Regs.building (r : Regs) : Regs := { r with cursor := r.cursor + 1, status := .packetBuilding }

/-- Complete() (R128, R130). LENGTH <= CAPACITY holds wherever it runs, so the window is in the buffer. -/
def Regs.complete (r : Regs) : Regs := { r with status := r.verdict (crc16 r.windowBytes), cursor := r.cursor + 1 }

/-- The high byte of LENGTH (R125): an empty payload completes at once. -/
def Regs.consumeLengthHigh (r : Regs) (b : Byte) : Regs :=
  if setHigh r.length b = 0 then Regs.complete { r with length := setHigh r.length b, dataCursor := 0 }
  else Regs.building { r with length := setHigh r.length b, dataCursor := 0 }

/-- DATA[DATA_CURSOR] <- b; DATA_CURSOR <- DATA_CURSOR + 1 (R126). -/
def Regs.storePayload (r : Regs) (b : Byte) : Regs :=
  { r with data := r.data.write r.dataCursor.toNat b, dataCursor := r.dataCursor + 1 }

/-- The store condition at a cursor of 8 or more (R126). -/
def Regs.mayStore (cfg : Config) (r : Regs) : Bool :=
  decide (r.cursor.toNat < headerSize + cfg.capacity.toNat) && decide (r.dataCursor.toNat < r.length.toNat) &&
    decide (r.dataCursor.toNat < cfg.capacity.toNat)

/-- A byte at a cursor of 8 or more (R126, R127): stored, with validation when it is the last; or PacketOverflow,
which writes STATUS only. -/
def Regs.consumePayload (cfg : Config) (r : Regs) (b : Byte) : Regs :=
  if r.mayStore cfg then
    if r.dataCursor + 1 = r.length then Regs.complete (r.storePayload b) else Regs.building (r.storePayload b)
  else { r with status := .packetOverflow }

/-- One byte through the state machine (R121). -/
def Regs.consume (cfg : Config) (r : Regs) (b : Byte) : Regs :=
  match r.cursor.toNat with
  | 0 => if b ≠ lowByte sync then r.headerNotFound else Regs.building { r with header := setLow b }
  | 1 => if b ≠ highByte sync then r.headerNotFound else Regs.building { r with header := setHigh r.header b }
  | 2 => Regs.building { r with checksum := setLow b }
  | 3 => Regs.building { r with checksum := setHigh r.checksum b }
  | 4 => Regs.building { r with request := b }
  | 5 => Regs.building { r with response := b }
  | 6 => Regs.building { r with length := setLow b }
  | 7 => r.consumeLengthHigh b
  | _ + 8 => r.consumePayload cfg b

/-- CONSUME_BYTE (R121): the result is the status it writes (R120). -/
def execConsumeByte (b : Byte) (s : State) : Host.Outcome State Fault Refusal :=
  if s.cfg.postTerminalMode = .fault ∧ s.regs.status.terminal then s.raise .consumeAfterTerminal
  else s.reply (s.regs.consume s.cfg b) (s.regs.consume s.cfg b).status 0

end Sys2Proof.Machine
end

