-- ==== Sys2Proof/Machine/DataId.lean ====
section
/-! DEFINITION. The DataId codec (spec 44_dataid.md R190 to R198): RESPOND_WITH_IDENTITY, DATAID_DECODE, and the record
the host builds for the first. -/

namespace Sys2Proof.Machine

/-- The record of R190 from a name and a maximum size: padded with 0x00 to 30 bytes, then max_size low byte first.
`none` for a name of more than 29 bytes, which is rejected before the record is built (R191, 30_encoding.md R82). -/
def dataIdRecord (name : List Byte) (maxSize : Half) : Option (List Byte) :=
  if name.length < dataIdNameSize then
    some (name ++ List.replicate (dataIdNameSize - name.length) 0x00 ++ [lowByte maxSize, highByte maxSize])
  else none

/-- The name field of a record, verbatim (R190, R196). -/
def recordName (record : List Byte) : List Byte := record.take dataIdNameSize

/-- The max_size field of a record (R190, R196). -/
def recordMaxSize (record : List Byte) : Half := record.getD 31 0 ++ record.getD 30 0

/-- RESPOND_WITH_IDENTITY (R192). -/
def execRespondWithIdentity (ascii : Bool) (record : List Byte) (s : State) : Host.Outcome State Fault Refusal :=
  if ascii = false then s.raise .unsupported
  else if record.getD 29 0 ≠ 0x00 then s.raise .nameTooLong
  else
    match s.regs.append s.cfg record with
    | none => s.reply s.regs .packetOverflow 0
    | some r => s.reply r.stamp .ok 0

/-- DATAID_DECODE (R196). -/
def execDataidDecode (s : State) : Host.Outcome State Fault Refusal :=
  if s.regs.length.toNat < dataIdSize then s.raise .shortPayload
  else if s.cfg.capacity.toNat < dataIdSize then s.raise .lengthExceedsCapacity
  else s.replyRecord s.regs .ok 0 (s.regs.data.readRun 0 dataIdSize)

end Sys2Proof.Machine
end

