-- ==== Sys2Proof/Machine/Emission.lean ====
section
/-! DEFINITION. NEXT_BYTE, RESET_CURSOR, FRAME_BYTE and FRAME_LENGTH (spec 42_emission.md R150 to R157). -/

namespace Sys2Proof.Machine

/-- NEXT_BYTE (R150). -/
def execNextByte (s : State) : Host.Outcome State Fault Refusal :=
  if s.regs.frameLength ≤ s.regs.cursor.toNat then
    s.reply { s.regs with status := .emissionFinished } .emissionFinished 0
  else
    match s.regs.frameByte s.cfg s.regs.cursor.toNat with
    | none => s.raise .lengthExceedsCapacity
    | some b => s.reply { s.regs with cursor := s.regs.cursor + 1, status := .ok } .ok (BitVec.zeroExtend 32 b)

/-- RESET_CURSOR (R152). -/
def execResetCursor (s : State) : Host.Outcome State Fault Refusal := s.reply { s.regs with cursor := 0 } .ok 0

/-- FRAME_BYTE (R154). -/
def execFrameByte (index : BitVec 24) (s : State) : Host.Outcome State Fault Refusal :=
  if s.regs.frameLength ≤ index.toNat then s.raise .indexOutOfRange
  else
    match s.regs.frameByte s.cfg index.toNat with
    | none => s.raise .lengthExceedsCapacity
    | some b => s.reply s.regs .ok (BitVec.zeroExtend 32 b)

/-- FRAME_LENGTH (R156). -/
def execFrameLength (s : State) : Host.Outcome State Fault Refusal :=
  s.reply s.regs .ok (BitVec.ofNat 32 s.regs.frameLength)

end Sys2Proof.Machine
end

