-- ==== Sys2Proof/Machine/Fields.lean ====
section
/-! DEFINITION. The setters, getters and resets (spec 45_fields_and_resets.md R210 to R221). -/

namespace Sys2Proof.Machine

/-- SET_REQUEST (R210). -/
def execSetRequest (v : Byte) (s : State) : Host.Outcome State Fault Refusal :=
  s.reply { s.regs with request := v } .ok 0

/-- SET_RESPONSE (R211). -/
def execSetResponse (v : Byte) (s : State) : Host.Outcome State Fault Refusal :=
  s.reply { s.regs with response := v } .ok 0

/-- A getter: the field's value, zero-extended, and no register written. -/
def State.get (s : State) (value : Word) : Host.Outcome State Fault Refusal := s.reply s.regs .ok value

/-- GET_HEADER (R212). -/
def execGetHeader (s : State) : Host.Outcome State Fault Refusal := s.get (BitVec.zeroExtend 32 s.regs.header)

/-- GET_CHECKSUM (R213): the stored value, not recomputed. -/
def execGetChecksum (s : State) : Host.Outcome State Fault Refusal := s.get (BitVec.zeroExtend 32 s.regs.checksum)

/-- GET_REQUEST (R214). -/
def execGetRequest (s : State) : Host.Outcome State Fault Refusal := s.get (BitVec.zeroExtend 32 s.regs.request)

/-- GET_RESPONSE (R215). -/
def execGetResponse (s : State) : Host.Outcome State Fault Refusal := s.get (BitVec.zeroExtend 32 s.regs.response)

/-- GET_DATA_LENGTH (R216). -/
def execGetDataLength (s : State) : Host.Outcome State Fault Refusal := s.get (BitVec.zeroExtend 32 s.regs.length)

/-- GET_DATA_BYTE (R217): every index below CAPACITY is legal. -/
def execGetDataByte (index : Half) (s : State) : Host.Outcome State Fault Refusal :=
  match s.regs.dataByte s.cfg index.toNat with
  | none => s.raise .indexOutOfRange
  | some b => s.get (BitVec.zeroExtend 32 b)

/-- GET_STATUS (R218): the code of STATUS is the value; the result's own status is Ok. -/
def execGetStatus (s : State) : Host.Outcome State Fault Refusal := s.get (BitVec.zeroExtend 32 s.regs.status.code)

/-- GET_CAPACITY (R219). -/
def execGetCapacity (s : State) : Host.Outcome State Fault Refusal := s.get (BitVec.zeroExtend 32 s.cfg.capacity)

/-- RESET_LAZY (R220): every register but DATA is cleared. -/
def execResetLazy (s : State) : Host.Outcome State Fault Refusal := s.reply s.regs.clearAllButData .ok 0

/-- RESET_FULL (R221): RESET_LAZY, and DATA is zeroed. -/
def execResetFull (s : State) : Host.Outcome State Fault Refusal :=
  s.reply { s.regs.clearAllButData with data := [] } .ok 0

end Sys2Proof.Machine
end

