-- ==== Sys2Proof/Machine/Packing.lean ====
section
/-! DEFINITION. PACK, SET_PAYLOAD, RESPOND_WITH_DATA and RESPOND_WITH_ERROR (spec 43_packing_and_response.md R170 to R178). -/

namespace Sys2Proof.Machine

/-- PACK (R170). -/
def execPack (s : State) : Host.Outcome State Fault Refusal :=
  match s.regs.window s.cfg with
  | none => s.raise .lengthExceedsCapacity
  | some window => s.reply { s.regs with checksum := crc16 window, header := sync } .ok 0

/-- SET_PAYLOAD (R172). -/
def execSetPayload (bytes : List Byte) (s : State) : Host.Outcome State Fault Refusal :=
  match s.regs.append s.cfg bytes with
  | none => s.reply s.regs .packetOverflow 0
  | some r => s.reply r .ok 0

/-- RESPOND_WITH_DATA (R175): on overflow REQUEST and RESPONSE are written and nothing is packed (R176). -/
def execRespondWithData (request : Byte) (bytes : List Byte) (s : State) : Host.Outcome State Fault Refusal :=
  match Regs.append s.cfg { s.regs with request := request } bytes with
  | none => s.reply { s.regs with request := request, response := responseError } .packetOverflow 0
  | some r => s.reply (Regs.stamp { r with response := responseSuccess }) .ok 0

/-- RESPOND_WITH_ERROR (R178). -/
def execRespondWithError (request code : Byte) (s : State) : Host.Outcome State Fault Refusal :=
  s.reply (Regs.stamp { s.regs with request := request, response := code, length := 0 }) .ok 0

end Sys2Proof.Machine
end

