-- ==== Sys2Proof/Machine/Dispatch.lean ====
section
/-! DEFINITION. Which meaning each command has: one arm per row of the opcode table. -/

namespace Sys2Proof.Machine

/-- The effect of one command. -/
def exec (i : Instr) (s : State) : Host.Outcome State Fault Refusal :=
  match i with
  | .checksum store => Sys2Proof.Machine.execChecksum store s
  | .validate => Sys2Proof.Machine.execValidate s
  | .consumeByte b => Sys2Proof.Machine.execConsumeByte b s
  | .nextByte => Sys2Proof.Machine.execNextByte s
  | .resetCursor => Sys2Proof.Machine.execResetCursor s
  | .frameByte index => Sys2Proof.Machine.execFrameByte index s
  | .frameLength => Sys2Proof.Machine.execFrameLength s
  | .pack => Sys2Proof.Machine.execPack s
  | .setPayload bytes => Sys2Proof.Machine.execSetPayload bytes s
  | .respondWithData request bytes => Sys2Proof.Machine.execRespondWithData request bytes s
  | .respondWithError request code => Sys2Proof.Machine.execRespondWithError request code s
  | .respondWithIdentity ascii record => Sys2Proof.Machine.execRespondWithIdentity ascii record s
  | .dataidDecode => Sys2Proof.Machine.execDataidDecode s
  | .setRequest v => Sys2Proof.Machine.execSetRequest v s
  | .setResponse v => Sys2Proof.Machine.execSetResponse v s
  | .getHeader => Sys2Proof.Machine.execGetHeader s
  | .getChecksum => Sys2Proof.Machine.execGetChecksum s
  | .getRequest => Sys2Proof.Machine.execGetRequest s
  | .getResponse => Sys2Proof.Machine.execGetResponse s
  | .getDataLength => Sys2Proof.Machine.execGetDataLength s
  | .getDataByte index => Sys2Proof.Machine.execGetDataByte index s
  | .getStatus => Sys2Proof.Machine.execGetStatus s
  | .getCapacity => Sys2Proof.Machine.execGetCapacity s
  | .resetLazy => Sys2Proof.Machine.execResetLazy s
  | .resetFull => Sys2Proof.Machine.execResetFull s

end Sys2Proof.Machine
end

