-- ==== Sys2Proof/Machine/Step.lean ====
section
/-! DEFINITION. One step of the engine: it takes the next whole command of the host's stream and runs it. -/

namespace Sys2Proof.Machine

/-- A whole command is taken and executed; an illegal word is taken and faults (spec 30_encoding.md R78); with no whole
command pending the engine waits (60_exceptions.md R259). -/
def step (s : State) : Host.Outcome State Fault Refusal :=
  match s.fetch with
  | .command i rest => exec i (s.taken rest)
  | .illegal _ rest => (s.taken rest).raiseIllegal
  | .incomplete => s.idle

/-- `s` with the instruction of opcode_table.json's bits `w` issued by the host as its next command (log 1). -/
def State.withFetchWord (s : State) (nbits w : Nat) : State := { s with pending := tableBytes nbits w ++ s.pending }

end Sys2Proof.Machine
end

