-- ==== Sys2Proof/Safety.lean ====
section
/-! DEFINITION. Runs, what counts as a good one, and the invariants of the machine, in the terms the statements use. -/

namespace Sys2Proof.Machine

/-- A run: commands issued in order to one engine (spec 70_reset_and_hazards.md R291). -/
def run : List Instr → State → Host.Outcome State Fault Refusal
  | [], s => .next s
  | i :: is, s =>
    match exec i s with
    | .next t => run is t
    | .fault r => .fault r
    | .refused r => .refused r

/-- The observation of a run: the results in the order they were returned, and the final registers (R291). -/
def State.observation (s : State) : List Result × Regs := (s.results.reverse, s.regs)

/-- No command fault has been returned. `results` is never shortened, so the record is never cleared
(60_exceptions.md R245). -/
def State.faultFree (s : State) : Bool := s.results.all (fun r => !r.isFault)

/-- A run from `s` over `is` ends well: it ends, and no command of it faulted (R245, R291). -/
def GoodRun (is : List Instr) (s : State) : Prop := ∃ t, run is s = .next t ∧ t.faultFree = true

/-- The values HEADER can hold: no command writes an arbitrary value into it (10_state.md R21), only 0, SYNC, and the
sync byte into either half. -/
def headerLegal (h : Half) : Bool := decide (h ∈ [0x0000, 0x0055, 0x5500, sync])

/-- What every step keeps: the cells of DATA are in canonical form (DESIGN CHOICE, log 5) and below CAPACITY (10_state.md
R26), HEADER holds a legal value (R21), CURSOR is at most 65543 (R37), DATA_CURSOR at most CAPACITY (R28), and every record
returned has 32 bytes (30_encoding.md R73). -/
structure State.Inv (s : State) : Prop where
  dataWf : s.regs.data.wf
  dataInBuffer : ∀ c ∈ s.regs.data, c.1 < s.cfg.capacity.toNat
  header : headerLegal s.regs.header = true
  cursor : s.regs.cursor.toNat ≤ 65543
  dataCursor : s.regs.dataCursor.toNat ≤ s.cfg.capacity.toNat
  records : ∀ res ∈ s.results, ∀ record, res.record? = some record → record.length = dataIdSize

/-- What CONSUME_BYTE keeps, with no other command in between (10_state.md R37). -/
structure State.ConstructionInv (s : State) : Prop where
  cursor : s.regs.cursor.toNat ≤ headerSize + s.cfg.capacity.toNat
  dataCursor : headerSize ≤ s.regs.cursor.toNat → s.regs.dataCursor.toNat = s.regs.cursor.toNat - headerSize
  inLength : headerSize ≤ s.regs.cursor.toNat → s.regs.dataCursor.toNat ≤ s.regs.length.toNat
  inBuffer : headerSize ≤ s.regs.cursor.toNat → s.regs.dataCursor.toNat ≤ s.cfg.capacity.toNat

end Sys2Proof.Machine
end

