-- ==== Sys2Proof/Certificates/Slice0/Obligations.lean ====
section
/-! DEFINITION. The statements for the provers. Each docstring names the rule or section of spec/ it formalises. A
statement with a command fault in its conclusion rests for that clause on log 4 (a command fault is a next state with
the fault result recorded). The result a command returns is read from State.results, where the model keeps it (log 3).
The premise s.regs.data.wf is the canonical form of the model's own list of cells (log 5, the model's choice), which
EveryStepKeepsTheInvariant says every step keeps. -/

open Sys2Proof Sys2Proof.Machine

/-! ## What the statements are written with -/

/-- The low and the high byte of a 16-bit field. -/
def Sys2Proof.Spec.lo (h : Half) : Byte := h.setWidth 8
def Sys2Proof.Spec.hi (h : Half) : Byte := (h >>> 8).setWidth 8

/-- DATA[0..LENGTH), through the read of one byte. -/
def Sys2Proof.Spec.payload (r : Regs) : List Byte := (List.range r.length.toNat).map r.data.read

/-- Window() (40_checksum.md R101), for LENGTH <= CAPACITY. -/
def Sys2Proof.Spec.window (r : Regs) : List Byte :=
  [r.request, r.response, Spec.lo r.length, Spec.hi r.length] ++ Spec.payload r

/-- The frame (20_memory.md R52), for LENGTH <= CAPACITY. -/
def Sys2Proof.Spec.frame (r : Regs) : List Byte :=
  [Spec.lo r.header, Spec.hi r.header, Spec.lo r.checksum, Spec.hi r.checksum] ++ Spec.window r

/-- The packet is packed (00_scope.md R15): its window exists, and HEADER and CHECKSUM are right. -/
def Sys2Proof.Spec.packed (s : State) : Prop :=
  s.regs.length.toNat ≤ s.cfg.capacity.toNat ∧ s.regs.header = 0x5555 ∧ s.regs.checksum = crc16 (Spec.window s.regs)

/-- The state after a command that returns (st, v) and leaves the registers `r`: nothing else has changed. -/
def Sys2Proof.Spec.after (s : State) (r : Regs) (st : Status) (v : Word) : State :=
  { cfg := s.cfg, regs := r, pending := s.pending, results := .status st v none :: s.results }

/-- The state after a command fault: no register is written (60_exceptions.md R245). -/
def Sys2Proof.Spec.faulted (s : State) (c : FaultCode) : State :=
  { cfg := s.cfg, regs := s.regs, pending := s.pending, results := .fault c :: s.results }

/-- CONSUME_BYTE processes its byte by the cursor rules (41_construction.md R131): the mode is CURSOR_RULES, or STATUS
is not terminal. -/
def Sys2Proof.Spec.accepts (s : State) : Prop :=
  s.cfg.postTerminalMode = .cursorRules ∨ s.regs.status ∈ [.ok, .packetBuilding, .emissionFinished]

/-- The outcome of comparing a CRC with the received CHECKSUM. -/
def Sys2Proof.Spec.verdict (crc checksum : Half) : Status :=
  if crc = checksum then .packetReceived else .checksumError

/-- match and mask of each row of opcode_table.json. -/
def Sys2Proof.Spec.tableRow : Opcode → Word × Word
  | .checksum => (0x01000000, 0xFFFEFFFF)
  | .validate => (0x02000000, 0xFFFFFFFF)
  | .consumeByte => (0x10000000, 0xFF00FFFF)
  | .nextByte => (0x20000000, 0xFFFFFFFF)
  | .resetCursor => (0x21000000, 0xFFFFFFFF)
  | .frameByte => (0x22000000, 0xFF000000)
  | .frameLength => (0x23000000, 0xFFFFFFFF)
  | .pack => (0x30000000, 0xFFFFFFFF)
  | .setPayload => (0x31000000, 0xFFFF0000)
  | .respondWithData => (0x32000000, 0xFF000000)
  | .respondWithError => (0x33000000, 0xFF00FF00)
  | .respondWithIdentity => (0x40000020, 0xFFFEFFFF)
  | .dataidDecode => (0x41000000, 0xFFFFFFFF)
  | .setRequest => (0x50000000, 0xFF00FFFF)
  | .setResponse => (0x51000000, 0xFF00FFFF)
  | .getHeader => (0x52000000, 0xFFFFFFFF)
  | .getChecksum => (0x53000000, 0xFFFFFFFF)
  | .getRequest => (0x54000000, 0xFFFFFFFF)
  | .getResponse => (0x55000000, 0xFFFFFFFF)
  | .getDataLength => (0x56000000, 0xFFFFFFFF)
  | .getDataByte => (0x57000000, 0xFFFF0000)
  | .getStatus => (0x58000000, 0xFFFFFFFF)
  | .getCapacity => (0x59000000, 0xFFFFFFFF)
  | .resetLazy => (0x5E000000, 0xFFFFFFFF)
  | .resetFull => (0x5F000000, 0xFFFFFFFF)

/-- Is the word illegal, by the columns OP, A and B of 30_encoding.md R74 and the cases of R78? -/
def Sys2Proof.Spec.illegalWord (w : Word) : Bool :=
  let a : Byte := (w >>> 16).setWidth 8
  let b : Half := w.setWidth 16
  match (w >>> 24).toNat with
  | 0x01 => !(a &&& 0xFE == 0 && b == 0)
  | 0x10 => b != 0
  | 0x50 => b != 0
  | 0x51 => b != 0
  | 0x22 => false
  | 0x32 => false
  | 0x31 => a != 0
  | 0x57 => a != 0
  | 0x33 => b &&& 0xFF00 != 0
  | 0x40 => !(a &&& 0xFE == 0 && b == 0x0020)
  | 0x02 | 0x20 | 0x21 | 0x23 | 0x30 | 0x41 | 0x52 | 0x53 | 0x54 | 0x55 | 0x56 | 0x58 | 0x59 | 0x5E | 0x5F =>
    !(a == 0 && b == 0)
  | _ => true

/-- The 256 entries of the CRC table as 40_checksum.md R103 lists them, row by row. -/
def Sys2Proof.Spec.crcListing : List Half :=
  [0x0000, 0xC0C1, 0xC181, 0x0140, 0xC301, 0x03C0, 0x0280, 0xC241] ++
  [0xC601, 0x06C0, 0x0780, 0xC741, 0x0500, 0xC5C1, 0xC481, 0x0440] ++
  [0xCC01, 0x0CC0, 0x0D80, 0xCD41, 0x0F00, 0xCFC1, 0xCE81, 0x0E40] ++
  [0x0A00, 0xCAC1, 0xCB81, 0x0B40, 0xC901, 0x09C0, 0x0880, 0xC841] ++
  [0xD801, 0x18C0, 0x1980, 0xD941, 0x1B00, 0xDBC1, 0xDA81, 0x1A40] ++
  [0x1E00, 0xDEC1, 0xDF81, 0x1F40, 0xDD01, 0x1DC0, 0x1C80, 0xDC41] ++
  [0x1400, 0xD4C1, 0xD581, 0x1540, 0xD701, 0x17C0, 0x1680, 0xD641] ++
  [0xD201, 0x12C0, 0x1380, 0xD341, 0x1100, 0xD1C1, 0xD081, 0x1040] ++
  [0xF001, 0x30C0, 0x3180, 0xF141, 0x3300, 0xF3C1, 0xF281, 0x3240] ++
  [0x3600, 0xF6C1, 0xF781, 0x3740, 0xF501, 0x35C0, 0x3480, 0xF441] ++
  [0x3C00, 0xFCC1, 0xFD81, 0x3D40, 0xFF01, 0x3FC0, 0x3E80, 0xFE41] ++
  [0xFA01, 0x3AC0, 0x3B80, 0xFB41, 0x3900, 0xF9C1, 0xF881, 0x3840] ++
  [0x2800, 0xE8C1, 0xE981, 0x2940, 0xEB01, 0x2BC0, 0x2A80, 0xEA41] ++
  [0xEE01, 0x2EC0, 0x2F80, 0xEF41, 0x2D00, 0xEDC1, 0xEC81, 0x2C40] ++
  [0xE401, 0x24C0, 0x2580, 0xE541, 0x2700, 0xE7C1, 0xE681, 0x2640] ++
  [0x2200, 0xE2C1, 0xE381, 0x2340, 0xE101, 0x21C0, 0x2080, 0xE041] ++
  [0xA001, 0x60C0, 0x6180, 0xA141, 0x6300, 0xA3C1, 0xA281, 0x6240] ++
  [0x6600, 0xA6C1, 0xA781, 0x6740, 0xA501, 0x65C0, 0x6480, 0xA441] ++
  [0x6C00, 0xACC1, 0xAD81, 0x6D40, 0xAF01, 0x6FC0, 0x6E80, 0xAE41] ++
  [0xAA01, 0x6AC0, 0x6B80, 0xAB41, 0x6900, 0xA9C1, 0xA881, 0x6840] ++
  [0x7800, 0xB8C1, 0xB981, 0x7940, 0xBB01, 0x7BC0, 0x7A80, 0xBA41] ++
  [0xBE01, 0x7EC0, 0x7F80, 0xBF41, 0x7D00, 0xBDC1, 0xBC81, 0x7C40] ++
  [0xB401, 0x74C0, 0x7580, 0xB541, 0x7700, 0xB7C1, 0xB681, 0x7640] ++
  [0x7200, 0xB2C1, 0xB381, 0x7340, 0xB101, 0x71C0, 0x7080, 0xB041] ++
  [0x5000, 0x90C1, 0x9181, 0x5140, 0x9301, 0x53C0, 0x5280, 0x9241] ++
  [0x9601, 0x56C0, 0x5780, 0x9741, 0x5500, 0x95C1, 0x9481, 0x5440] ++
  [0x9C01, 0x5CC0, 0x5D80, 0x9D41, 0x5F00, 0x9FC1, 0x9E81, 0x5E40] ++
  [0x5A00, 0x9AC1, 0x9B81, 0x5B40, 0x9901, 0x59C0, 0x5880, 0x9841] ++
  [0x8801, 0x48C0, 0x4980, 0x8941, 0x4B00, 0x8BC1, 0x8A81, 0x4A40] ++
  [0x4E00, 0x8EC1, 0x8F81, 0x4F40, 0x8D01, 0x4DC0, 0x4C80, 0x8C41] ++
  [0x4400, 0x84C1, 0x8581, 0x4540, 0x8701, 0x47C0, 0x4680, 0x8641] ++
  [0x8201, 0x42C0, 0x4380, 0x8341, 0x4100, 0x81C1, 0x8081, 0x4040]

/-- The fault a command raises in a state, by the causes of 60_exceptions.md R246 in the order of R248. -/
def Sys2Proof.Spec.faultCause (i : Instr) (s : State) : Option FaultCode :=
  let cap := s.cfg.capacity.toNat
  let len := s.regs.length.toNat
  match i with
  | .checksum _ => if cap < len then some .lengthExceedsCapacity else none
  | .validate => if cap < len then some .lengthExceedsCapacity else none
  | .pack => if cap < len then some .lengthExceedsCapacity else none
  | .consumeByte _ =>
    if s.cfg.postTerminalMode = .fault ∧
        s.regs.status ∈ [.packetReceived, .checksumError, .headerNotFound, .packetOverflow] then
      some .consumeAfterTerminal
    else none
  | .nextByte =>
    if s.regs.cursor.toNat < 8 + len ∧ 8 + cap ≤ s.regs.cursor.toNat then some .lengthExceedsCapacity else none
  | .frameByte index =>
    if 8 + len ≤ index.toNat then some .indexOutOfRange
    else if 8 + cap ≤ index.toNat then some .lengthExceedsCapacity else none
  | .getDataByte index => if cap ≤ index.toNat then some .indexOutOfRange else none
  | .respondWithIdentity ascii record =>
    if ascii = false then some .unsupported else if record.getD 29 0 ≠ 0 then some .nameTooLong else none
  | .dataidDecode =>
    if len < 32 then some .shortPayload else if cap < 32 then some .lengthExceedsCapacity else none
  | .resetCursor | .frameLength | .setPayload _ | .respondWithData _ _ | .respondWithError _ _ | .setRequest _
  | .setResponse _ | .getHeader | .getChecksum | .getRequest | .getResponse | .getDataLength | .getStatus | .getCapacity
  | .resetLazy | .resetFull => none

/-- The commands that write STATUS (10_state.md R29). -/
def Sys2Proof.Spec.writesStatus : Instr → Bool
  | .consumeByte _ | .nextByte | .validate | .resetLazy | .resetFull => true
  | _ => false

/-- The commands that write CURSOR (10_state.md R27). -/
def Sys2Proof.Spec.writesCursor : Instr → Bool
  | .consumeByte _ | .nextByte | .resetCursor | .resetLazy | .resetFull => true
  | _ => false

/-- The commands that write DATA_CURSOR (10_state.md R28). -/
def Sys2Proof.Spec.writesDataCursor : Instr → Bool
  | .consumeByte _ | .resetLazy | .resetFull => true
  | _ => false

/-- The commands that write REQUEST (10_state.md R23). -/
def Sys2Proof.Spec.writesRequest : Instr → Bool
  | .setRequest _ | .respondWithData _ _ | .respondWithError _ _ | .consumeByte _ | .resetLazy | .resetFull => true
  | _ => false

/-- The commands that write RESPONSE (10_state.md R24). -/
def Sys2Proof.Spec.writesResponse : Instr → Bool
  | .setResponse _ | .respondWithData _ _ | .respondWithError _ _ | .consumeByte _ | .resetLazy | .resetFull => true
  | _ => false

/-- The commands that write LENGTH (10_state.md R25). -/
def Sys2Proof.Spec.writesLength : Instr → Bool
  | .setPayload _ | .respondWithData _ _ | .respondWithIdentity _ _ | .respondWithError _ _ | .consumeByte _
  | .resetLazy | .resetFull => true
  | _ => false

/-- The commands that write DATA (10_state.md R26). -/
def Sys2Proof.Spec.writesData : Instr → Bool
  | .setPayload _ | .respondWithData _ _ | .respondWithIdentity _ _ | .consumeByte _ | .resetFull => true
  | _ => false

/-- The commands that write HEADER (10_state.md R21): PACK and the helpers that pack, construction, the resets. -/
def Sys2Proof.Spec.writesHeader : Instr → Bool
  | .pack | .respondWithData _ _ | .respondWithError _ _ | .respondWithIdentity _ _ | .consumeByte _ | .resetLazy
  | .resetFull => true
  | _ => false

/-- The commands that write CHECKSUM (10_state.md R22): as HEADER, and CHECKSUM with store = 1. -/
def Sys2Proof.Spec.writesChecksum : Instr → Bool
  | .checksum store => store
  | i => Spec.writesHeader i

/-- The commands that can leave a packed packet unpacked (43_packing_and_response.md R171): RESPOND_WITH_DATA only on its
overflow path. -/
def Sys2Proof.Spec.mayUnpack (i : Instr) (s : State) : Bool :=
  match i with
  | .setRequest _ | .setResponse _ | .consumeByte _ | .resetLazy | .resetFull => true
  | .setPayload bytes => !bytes.isEmpty
  | .respondWithData _ bytes => decide (s.cfg.capacity.toNat < s.regs.length.toNat + bytes.length)
  | _ => false

/-- The commands with no side effect (20_memory.md R58). -/
def Sys2Proof.Spec.sideEffectFree : Instr → Bool
  | .frameByte _ | .frameLength | .getHeader | .getChecksum | .getRequest | .getResponse | .getDataLength
  | .getDataByte _ | .getStatus | .getCapacity | .dataidDecode => true
  | .checksum store => !store
  | _ => false

/-! ## Encoding -/

/-- 30_encoding.md R71, R72, R74, R80, R81: the decoder reads back every command the encoder writes, with every
operand at every value, and leaves the bytes after it. (Byte order of the word: log 1.) -/
def Obligations.DecodeOfEncodeIsTheCommand : Prop :=
  ∀ (i : Instr) (rest : List Byte), i.wellFormed = true → decode (encode i ++ rest) = .command i rest

/-- 30_encoding.md R79 ("Every 32-bit word decodes either to exactly one row"): a decoded command is well formed and its
bytes are its encoding, so no two encodings give one command and no bit is ignored. -/
def Obligations.DecodedBytesAreTheEncoding : Prop :=
  ∀ (bytes : List Byte) (i : Instr) (rest : List Byte), decode bytes = .command i rest →
    i.wellFormed = true ∧ bytes = encode i ++ rest

/-- 30_encoding.md R74, R79 and opcode_table.json: a word decodes to a row exactly when it has the row's match under the
row's mask; so no word has two rows. -/
def Obligations.DecoderAgreesWithOpcodeTable : Prop :=
  ∀ (w : Word) (op : Opcode), decodeWord w = .ok op ↔ w &&& (Spec.tableRow op).2 = (Spec.tableRow op).1

/-- 30_encoding.md R78: an illegal word raises IllegalCommand, changes no register and consumes no burst; a word that is
not illegal decodes to a row. (The fault is a next state: log 4.) -/
def Obligations.IllegalWordFaultsAndConsumesNoBurst : Prop :=
  (∀ (s : State) (w : Word) (rest : List Byte), s.pending = wordBytes w ++ rest → Spec.illegalWord w = true →
    step s = .next (Spec.faulted { s with pending := rest } .illegalCommand)) ∧
  (∀ w : Word, Spec.illegalWord w = false → ∃ op, decodeWord w = .ok op)

/-- Words written out from 30_encoding.md R74 and 95_test_vectors.md decode to the commands they stand for. -/
def Obligations.WordsOfTheSpecDecode : Prop :=
  decode (wordBytes 0x01010000) = .command (.checksum true) [] ∧
  decode (wordBytes 0x10550000) = .command (.consumeByte 0x55) [] ∧
  decode (wordBytes 0x2201000A) = .command (.frameByte 0x01000A) [] ∧
  decode (wordBytes 0x31000002 ++ [0x07, 0x08]) = .command (.setPayload [0x07, 0x08]) [] ∧
  decode (wordBytes 0x331000FE) = .command (.respondWithError 0x10 0xFE) [] ∧
  decode (wordBytes 0x40010020 ++ List.replicate 32 0x00) =
    .command (.respondWithIdentity true (List.replicate 32 0x00)) [] ∧
  decode (wordBytes 0x57000001) = .command (.getDataByte 1) []

/-! ## The step and the host's command stream -/

/-- 00_scope.md R5: a step takes the next whole command of the host's stream and executes it; around exec the step only
moves past the command's bytes. -/
def Obligations.StepRunsTheDecodedCommand : Prop :=
  ∀ (s : State) (i : Instr) (rest : List Byte), decode s.pending = .command i rest →
    step s = exec i { s with pending := rest }

/-- 60_exceptions.md R259 with log 1: until a command has arrived in full, the engine holds all its state. -/
def Obligations.StepWaitsForAWholeCommand : Prop :=
  ∀ (s : State) (i : Instr) (more : List Byte), i.wellFormed = true → encode i = s.pending ++ more → more ≠ [] →
    step s = .next s

/-- 20_memory.md R61 and 70_reset_and_hazards.md R291: the steps over the bytes of a command sequence are the commands in
program order. -/
def Obligations.StepsRunTheHostsProgram : Prop :=
  ∀ (is : List Instr) (s : State) (rest : List Byte), (∀ i ∈ is, i.wellFormed = true) →
    Host.Core.run core is.length ({ s with pending := is.flatMap encode ++ rest } : State) =
      run is { s with pending := rest }

/-! ## Reset -/

/-- 70_reset_and_hazards.md R270 and 10_state.md R35: the state of a new engine, for every configuration, and that it is
the state RESET_FULL produces. The last clause is the model's choice (log 2), no rule of the spec: State.reset is the new
engine with the configuration that log 2 names. -/
def Obligations.CreationStateIsZeroedAndEqualsResetFull : Prop :=
  (∀ cfg : Config, (State.init cfg).cfg = cfg ∧ (State.init cfg).regs.header = 0 ∧ (State.init cfg).regs.checksum = 0 ∧
    (State.init cfg).regs.request = 0 ∧ (State.init cfg).regs.response = 0 ∧ (State.init cfg).regs.length = 0 ∧
    (∀ i, i < cfg.capacity.toNat → (State.init cfg).regs.data.read i = 0) ∧ (State.init cfg).regs.cursor = 0 ∧
    (State.init cfg).regs.dataCursor = 0 ∧ (State.init cfg).regs.status = .ok ∧
    (State.init cfg).regs.status.code = 0) ∧
  (∀ s t : State, exec .resetFull s = .next t → t.regs = (State.init s.cfg).regs) ∧
  State.reset = State.init Config.created

/-- 45_fields_and_resets.md R220: RESET_LAZY clears every register but DATA; afterwards FRAME_LENGTH returns 8 and every
old buffer byte is still readable. -/
def Obligations.ResetLazyClearsAllButData : Prop :=
  encodeWord .resetLazy = 0x5E000000 ∧
  ∀ s : State, ∃ t, exec .resetLazy s = .next t ∧
    t = Spec.after s { header := 0, checksum := 0, request := 0, response := 0, length := 0, data := s.regs.data,
                       cursor := 0, dataCursor := 0, status := .ok } .ok 0 ∧
    exec .frameLength t = .next (Spec.after t t.regs .ok 8) ∧
    (∀ index : Half, index.toNat < s.cfg.capacity.toNat →
      exec (.getDataByte index) t = .next (Spec.after t t.regs .ok ((s.regs.data.read index.toNat).setWidth 32))) ∧
    ¬ Spec.packed t

/-- 45_fields_and_resets.md R221: RESET_FULL clears every register and zeroes the buffer; the state afterwards equals the
creation state. -/
def Obligations.ResetFullClearsEverything : Prop :=
  encodeWord .resetFull = 0x5F000000 ∧
  ∀ s : State, ∃ t, exec .resetFull s = .next t ∧
    t = Spec.after s { header := 0, checksum := 0, request := 0, response := 0, length := 0, data := t.regs.data,
                       cursor := 0, dataCursor := 0, status := .ok } .ok 0 ∧
    (∀ a, t.regs.data.read a = 0) ∧
    (∀ index : Half, index.toNat < s.cfg.capacity.toNat →
      exec (.getDataByte index) t = .next (Spec.after t t.regs .ok 0)) ∧
    t.regs = (State.init s.cfg).regs

/-- 42_emission.md R152: RESET_CURSOR writes CURSOR and nothing else, so a CONSUME_BYTE after it starts a construction
at cursor 0 over the current fields. -/
def Obligations.ResetCursorWritesOnlyCursor : Prop :=
  encodeWord .resetCursor = 0x21000000 ∧
  ∀ s : State, exec .resetCursor s = .next (Spec.after s { s.regs with cursor := 0 } .ok 0)

/-! ## The checksum engine -/

/-- 40_checksum.md R102 with the listing of R103: the CRC is the table-driven loop over the 256 listed entries. -/
def Obligations.CrcIsTheLoopOverTheListedTable : Prop :=
  Spec.crcListing.length = 256 ∧
  ∀ bytes : List Byte, crc16 bytes =
    bytes.foldl (fun (crc : Half) (b : Byte) => Spec.crcListing.getD ((crc ^^^ b.setWidth 16) &&& 0x00FF).toNat 0 ^^^ (crc >>> 8)) 0

/-- 40_checksum.md R105 (general knowledge of the spec): the table-driven loop equals the bitwise loop. -/
def Obligations.CrcEqualsTheBitwiseLoop : Prop :=
  ∀ bytes : List Byte, crc16 bytes =
    bytes.foldl (fun crc b => Nat.repeat
      (fun c : Half => if c.getLsbD 0 then (c >>> 1) ^^^ 0xA001 else c >>> 1) 8 (crc ^^^ b.setWidth 16)) 0

/-- 40_checksum.md R107: changing any one byte of a window changes its CRC. -/
def Obligations.OneChangedByteChangesTheCrc : Prop :=
  ∀ (before after : List Byte) (b b' : Byte), b ≠ b' → crc16 (before ++ b :: after) ≠ crc16 (before ++ b' :: after)

/-- 40_checksum.md R107: VALIDATE on a packed packet gives PacketReceived; with one payload byte changed after packing,
or the request, the response or CHECKSUM, it gives ChecksumError. (LENGTH, whose change moves the window's end, and
HEADER, which VALIDATE does not check by R106, are not among these.) -/
def Obligations.ValidateReportsOneCorruptedByte : Prop :=
  ∀ s : State, s.regs.data.wf → Spec.packed s →
    exec .validate s = .next (Spec.after s { s.regs with status := .packetReceived } .packetReceived 0) ∧
    (∀ (i : Nat) (b : Byte) (r : Regs), i < s.regs.length.toNat → b ≠ s.regs.data.read i →
      r = { s.regs with data := s.regs.data.write i b } →
      exec .validate { s with regs := r } =
        .next (Spec.after { s with regs := r } { r with status := .checksumError } .checksumError 0)) ∧
    (∀ (v : Byte) (r : Regs), v ≠ s.regs.request → r = { s.regs with request := v } →
      exec .validate { s with regs := r } =
        .next (Spec.after { s with regs := r } { r with status := .checksumError } .checksumError 0)) ∧
    (∀ (v : Byte) (r : Regs), v ≠ s.regs.response → r = { s.regs with response := v } →
      exec .validate { s with regs := r } =
        .next (Spec.after { s with regs := r } { r with status := .checksumError } .checksumError 0)) ∧
    (∀ (v : Half) (r : Regs), v ≠ s.regs.checksum → r = { s.regs with checksum := v } →
      exec .validate { s with regs := r } =
        .next (Spec.after { s with regs := r } { r with status := .checksumError } .checksumError 0))

/-- 40_checksum.md section 2 (CHECKSUM): the CRC of the window is returned, and stored when store = 1; with
LENGTH > CAPACITY the command faults (log 4). -/
def Obligations.ChecksumReturnsAndStoresTheCrc : Prop :=
  encodeWord (.checksum false) = 0x01000000 ∧ encodeWord (.checksum true) = 0x01010000 ∧
  ∀ s : State,
    (s.regs.length.toNat ≤ s.cfg.capacity.toNat →
      exec (.checksum false) s = .next (Spec.after s s.regs .ok ((crc16 (Spec.window s.regs)).setWidth 32)) ∧
      exec (.checksum true) s = .next (Spec.after s { s.regs with checksum := crc16 (Spec.window s.regs) } .ok
        ((crc16 (Spec.window s.regs)).setWidth 32))) ∧
    (s.cfg.capacity.toNat < s.regs.length.toNat → ∀ store,
      exec (.checksum store) s = .next (Spec.faulted s .lengthExceedsCapacity))

/-- 40_checksum.md section 3 (VALIDATE): STATUS is PacketReceived or ChecksumError by the CRC alone, CHECKSUM is not
overwritten; with LENGTH > CAPACITY the command faults (log 4). -/
def Obligations.ValidateComparesTheCrc : Prop :=
  encodeWord .validate = 0x02000000 ∧
  ∀ s : State,
    (s.regs.length.toNat ≤ s.cfg.capacity.toNat → s.regs.checksum = crc16 (Spec.window s.regs) →
      exec .validate s = .next (Spec.after s { s.regs with status := .packetReceived } .packetReceived 0)) ∧
    (s.regs.length.toNat ≤ s.cfg.capacity.toNat → s.regs.checksum ≠ crc16 (Spec.window s.regs) →
      exec .validate s = .next (Spec.after s { s.regs with status := .checksumError } .checksumError 0)) ∧
    (s.cfg.capacity.toNat < s.regs.length.toNat →
      exec .validate s = .next (Spec.faulted s .lengthExceedsCapacity))

/-! ## Construction -/

/-- 41_construction.md R122: the sync bytes at cursors 0 and 1. A mismatch writes only CURSOR and STATUS; a match is
stored in HEADER. -/
def Obligations.SyncBytesAreStoredOrHeaderNotFound : Prop :=
  ∀ (s : State) (b : Byte), Spec.accepts s →
    (s.regs.cursor.toNat ≤ 1 → b ≠ 0x55 →
      exec (.consumeByte b) s =
        .next (Spec.after s { s.regs with cursor := 0, status := .headerNotFound } .headerNotFound 0)) ∧
    (s.regs.cursor = 0 → b = 0x55 →
      exec (.consumeByte b) s =
        .next (Spec.after s { s.regs with header := 0x0055, cursor := 1, status := .packetBuilding } .packetBuilding 0)) ∧
    (s.regs.cursor = 1 → b = 0x55 →
      exec (.consumeByte b) s =
        .next (Spec.after s { s.regs with header := 0x5500 ||| (s.regs.header &&& 0x00FF), cursor := 2,
                                          status := .packetBuilding } .packetBuilding 0) ∧
      (s.regs.header &&& 0x00FF = 0x0055 → 0x5500 ||| (s.regs.header &&& 0x00FF) = (0x5555 : Half)))

/-- 41_construction.md R123, R124: the checksum bytes at cursors 2 and 3, verbatim, and the codes at cursors 4 and 5,
unchecked. -/
def Obligations.ChecksumAndCodesAreStoredVerbatim : Prop :=
  ∀ (s : State) (b : Byte), Spec.accepts s →
    (s.regs.cursor = 2 → exec (.consumeByte b) s =
      .next (Spec.after s { s.regs with checksum := b.setWidth 16, cursor := 3, status := .packetBuilding }
        .packetBuilding 0)) ∧
    (s.regs.cursor = 3 → exec (.consumeByte b) s =
      .next (Spec.after s { s.regs with checksum := (b.setWidth 16 <<< 8) ||| (s.regs.checksum &&& 0x00FF), cursor := 4,
                                        status := .packetBuilding } .packetBuilding 0)) ∧
    (s.regs.cursor = 4 → exec (.consumeByte b) s =
      .next (Spec.after s { s.regs with request := b, cursor := 5, status := .packetBuilding } .packetBuilding 0)) ∧
    (s.regs.cursor = 5 → exec (.consumeByte b) s =
      .next (Spec.after s { s.regs with response := b, cursor := 6, status := .packetBuilding } .packetBuilding 0))

/-- 41_construction.md R125: the length bytes at cursors 6 and 7, not compared with CAPACITY; after the high byte
DATA_CURSOR is 0, and a zero length validates at once over REQUEST, RESPONSE, 0, 0. -/
def Obligations.LengthIsStoredAndEmptyFrameCompletes : Prop :=
  ∀ (s : State) (b : Byte), Spec.accepts s →
    (s.regs.cursor = 6 → exec (.consumeByte b) s =
      .next (Spec.after s { s.regs with length := b.setWidth 16, cursor := 7, status := .packetBuilding }
        .packetBuilding 0)) ∧
    (s.regs.cursor = 7 → ∀ n : Half, n = (b.setWidth 16 <<< 8) ||| (s.regs.length &&& 0x00FF) →
      (n ≠ 0 → exec (.consumeByte b) s =
        .next (Spec.after s { s.regs with length := n, dataCursor := 0, cursor := 8, status := .packetBuilding }
          .packetBuilding 0)) ∧
      (n = 0 → ∀ v : Status, v = Spec.verdict (crc16 [s.regs.request, s.regs.response, 0, 0]) s.regs.checksum →
        exec (.consumeByte b) s =
          .next (Spec.after s { s.regs with length := 0, dataCursor := 0, cursor := 8, status := v } v 0)))

/-- 41_construction.md R126, R128, R130: a payload byte is stored at DATA[DATA_CURSOR], every other byte of the buffer
stays, DATA_CURSOR and CURSOR advance by one, and the last byte validates the frame. -/
def Obligations.PayloadByteIsStoredAndLastByteValidates : Prop :=
  ∀ (s : State) (b : Byte), Spec.accepts s → s.regs.data.wf → 8 ≤ s.regs.cursor.toNat →
    s.regs.cursor.toNat < 8 + s.cfg.capacity.toNat → s.regs.dataCursor.toNat < s.regs.length.toNat →
    s.regs.dataCursor.toNat < s.cfg.capacity.toNat →
    ∃ t st, exec (.consumeByte b) s = .next t ∧
      t = Spec.after s { s.regs with data := t.regs.data, dataCursor := s.regs.dataCursor + 1,
                                     cursor := s.regs.cursor + 1, status := st } st 0 ∧
      t.regs.dataCursor.toNat = s.regs.dataCursor.toNat + 1 ∧ t.regs.cursor.toNat = s.regs.cursor.toNat + 1 ∧
      (∀ a, t.regs.data.read a = if a = s.regs.dataCursor.toNat then b else s.regs.data.read a) ∧
      st = (if s.regs.dataCursor.toNat + 1 = s.regs.length.toNat then
        Spec.verdict (crc16 (Spec.window t.regs)) s.regs.checksum else .packetBuilding)

/-- 41_construction.md R127: at a cursor of 8 or more where the byte cannot be stored, only STATUS is written, and under
CURSOR_RULES every later byte gives PacketOverflow again. -/
def Obligations.OverflowWritesOnlyStatus : Prop :=
  ∀ (s : State) (b : Byte), Spec.accepts s → 8 ≤ s.regs.cursor.toNat →
    (8 + s.cfg.capacity.toNat ≤ s.regs.cursor.toNat ∨ s.regs.length.toNat ≤ s.regs.dataCursor.toNat ∨
      s.cfg.capacity.toNat ≤ s.regs.dataCursor.toNat) →
    ∃ t, exec (.consumeByte b) s = .next t ∧
      t = Spec.after s { s.regs with status := .packetOverflow } .packetOverflow 0 ∧
      (s.cfg.postTerminalMode = .cursorRules → ∀ b',
        exec (.consumeByte b') t = .next (Spec.after t t.regs .packetOverflow 0))

/-- 41_construction.md R131: a byte after a completed frame. Under CURSOR_RULES it gives PacketOverflow and changes no
other register; under FAULT it faults (log 4) until RESET_LAZY or RESET_FULL, RESET_CURSOR does not help. -/
def Obligations.ByteAfterACompletedFrame : Prop :=
  ∀ (s t : State) (b b' : Byte), exec (.consumeByte b) s = .next t → t.results.head? ≠ some (.fault .consumeAfterTerminal) →
    t.regs.status = .packetReceived ∨ t.regs.status = .checksumError →
    (s.cfg.postTerminalMode = .cursorRules → exec (.consumeByte b') t =
      .next (Spec.after t { t.regs with status := .packetOverflow } .packetOverflow 0)) ∧
    (s.cfg.postTerminalMode = .fault →
      exec (.consumeByte b') t = .next (Spec.faulted t .consumeAfterTerminal) ∧
      (∀ u, exec .resetCursor t = .next u → exec (.consumeByte b') u = .next (Spec.faulted u .consumeAfterTerminal)) ∧
      (∀ u, exec .resetLazy t = .next u ∨ exec .resetFull t = .next u →
        ∃ v, exec (.consumeByte 0x55) u = .next v ∧ v.regs.status = .packetBuilding))

/-- 41_construction.md R133: feeding the 8 + L bytes of a correct frame returns PacketBuilding for the first 7 + L and
PacketReceived for the last, and leaves the frame's fields and payload in the registers. -/
def Obligations.CorrectFrameIsReceivedExactlyOnItsLastByte : Prop :=
  ∀ (s : State) (req resp : Byte) (len sum : Half) (payload : List Byte),
    s.regs.data.wf → s.regs.cursor = 0 → s.regs.status ∈ [.ok, .packetBuilding, .emissionFinished] →
    payload.length = len.toNat → len.toNat ≤ s.cfg.capacity.toNat →
    sum = crc16 ([req, resp, Spec.lo len, Spec.hi len] ++ payload) →
    ∃ t, run (([0x55, 0x55, Spec.lo sum, Spec.hi sum, req, resp, Spec.lo len, Spec.hi len] ++ payload).map .consumeByte) s
        = .next t ∧
      t.results = .status .packetReceived 0 none ::
        (List.replicate (7 + len.toNat) (.status .packetBuilding 0 none) ++ s.results) ∧
      t.cfg = s.cfg ∧ t.pending = s.pending ∧
      t.regs = { header := 0x5555, checksum := sum, request := req, response := resp, length := len, data := t.regs.data,
                 cursor := BitVec.ofNat 32 (8 + len.toNat), dataCursor := len, status := .packetReceived } ∧
      ∀ a, t.regs.data.read a = if a < len.toNat then payload.getD a 0 else s.regs.data.read a

/-- 10_state.md R37: CONSUME_BYTE keeps the construction invariant, which a new engine has. -/
def Obligations.ConsumeByteKeepsTheConstructionInvariant : Prop :=
  (∀ cfg, (State.init cfg).ConstructionInv) ∧
  ∀ (s t : State) (b : Byte), s.ConstructionInv → exec (.consumeByte b) s = .next t → t.ConstructionInv

/-! ## Emission -/

/-- 42_emission.md section 1 (NEXT_BYTE): the frame byte at CURSOR, which advances; EmissionFinished at the end, with
CURSOR unchanged; a fault past the buffer (log 4). -/
def Obligations.NextByteEmitsTheFrameByteAtCursor : Prop :=
  encodeWord .nextByte = 0x20000000 ∧
  ∀ s : State,
    (8 + s.regs.length.toNat ≤ s.regs.cursor.toNat →
      exec .nextByte s = .next (Spec.after s { s.regs with status := .emissionFinished } .emissionFinished 0)) ∧
    (s.regs.cursor.toNat < 8 + s.regs.length.toNat → s.regs.cursor.toNat < 8 + s.cfg.capacity.toNat →
      exec .nextByte s = .next (Spec.after s { s.regs with cursor := s.regs.cursor + 1, status := .ok } .ok
        (((Spec.frame s.regs).getD s.regs.cursor.toNat 0).setWidth 32))) ∧
    (s.regs.cursor.toNat < 8 + s.regs.length.toNat → 8 + s.cfg.capacity.toNat ≤ s.regs.cursor.toNat →
      exec .nextByte s = .next (Spec.faulted s .lengthExceedsCapacity))

/-- 42_emission.md section 2 (FRAME_BYTE): the frame byte at the index, with no register written; faults outside the
frame and past the buffer (log 4). -/
def Obligations.FrameByteReadsTheFrame : Prop :=
  ∀ (s : State) (index : BitVec 24),
    encodeWord (.frameByte index) = 0x22000000 ||| index.setWidth 32 ∧
    (index.toNat < 8 + s.regs.length.toNat → index.toNat < 8 + s.cfg.capacity.toNat →
      exec (.frameByte index) s =
        .next (Spec.after s s.regs .ok (((Spec.frame s.regs).getD index.toNat 0).setWidth 32))) ∧
    (8 + s.regs.length.toNat ≤ index.toNat →
      exec (.frameByte index) s = .next (Spec.faulted s .indexOutOfRange)) ∧
    (index.toNat < 8 + s.regs.length.toNat → 8 + s.cfg.capacity.toNat ≤ index.toNat →
      exec (.frameByte index) s = .next (Spec.faulted s .lengthExceedsCapacity))

/-- 42_emission.md R156: FRAME_LENGTH returns 8 + LENGTH, a sum that does not wrap in the value word. -/
def Obligations.FrameLengthReturnsHeaderPlusLength : Prop :=
  encodeWord .frameLength = 0x23000000 ∧
  ∀ s : State, ∃ v : Word, exec .frameLength s = .next (Spec.after s s.regs .ok v) ∧ v.toNat = 8 + s.regs.length.toNat

/-- 42_emission.md R157: from CURSOR = 0, the first 8 + LENGTH NEXT_BYTEs return the bytes of the bulk view taken in that
state, and the next one EmissionFinished. -/
def Obligations.CursorViewAndBulkViewAgree : Prop :=
  ∀ s : State, s.regs.cursor = 0 → s.regs.length.toNat ≤ s.cfg.capacity.toNat →
    (∃ t, run (List.replicate (8 + s.regs.length.toNat + 1) .nextByte) s = .next t ∧
      t.results = .status .emissionFinished 0 none ::
        ((Spec.frame s.regs).map (fun b => Result.status .ok (b.setWidth 32) none)).reverse ++ s.results ∧
      t.regs = { s.regs with cursor := BitVec.ofNat 32 (8 + s.regs.length.toNat), status := .emissionFinished }) ∧
    (∀ o, o < 8 + s.regs.length.toNat → exec (.frameByte (BitVec.ofNat 24 o)) s =
      .next (Spec.after s s.regs .ok (((Spec.frame s.regs).getD o 0).setWidth 32)))

/-! ## Packing and the response helpers -/

/-- 43_packing_and_response.md section 1 (PACK): CHECKSUM and HEADER are written and the packet is packed; with
LENGTH > CAPACITY the command faults (log 4). -/
def Obligations.PackStampsChecksumAndHeader : Prop :=
  encodeWord .pack = 0x30000000 ∧
  ∀ s : State,
    (s.regs.length.toNat ≤ s.cfg.capacity.toNat → ∃ t, exec .pack s = .next t ∧
      t = Spec.after s { s.regs with checksum := crc16 (Spec.window s.regs), header := 0x5555 } .ok 0 ∧ Spec.packed t) ∧
    (s.cfg.capacity.toNat < s.regs.length.toNat → exec .pack s = .next (Spec.faulted s .lengthExceedsCapacity))

/-- 43_packing_and_response.md R172: SET_PAYLOAD appends all its bytes at LENGTH, or writes nothing; every byte outside
the appended ones stays. -/
def Obligations.SetPayloadAppendsAllOrNothing : Prop :=
  ∀ (s : State) (bytes : List Byte), s.regs.data.wf →
    (bytes.length ≤ 65535 → encodeWord (.setPayload bytes) = 0x31000000 ||| BitVec.ofNat 32 bytes.length) ∧
    (s.regs.length.toNat + bytes.length ≤ s.cfg.capacity.toNat →
      ∃ t, exec (.setPayload bytes) s = .next t ∧
        t = Spec.after s { s.regs with data := t.regs.data, length := t.regs.length } .ok 0 ∧
        t.regs.length.toNat = s.regs.length.toNat + bytes.length ∧
        ∀ a, t.regs.data.read a =
          if s.regs.length.toNat ≤ a ∧ a < s.regs.length.toNat + bytes.length then
            bytes.getD (a - s.regs.length.toNat) 0
          else s.regs.data.read a) ∧
    (s.cfg.capacity.toNat < s.regs.length.toNat + bytes.length →
      exec (.setPayload bytes) s = .next (Spec.after s s.regs .packetOverflow 0))

/-- 43_packing_and_response.md R175, R176: RESPOND_WITH_DATA appends, sets RESPONSE to SUCCESS and packs; on overflow
REQUEST and RESPONSE = ERROR are written and nothing is packed. -/
def Obligations.RespondWithDataAppendsAndPacksOrReportsError : Prop :=
  ∀ (s : State) (request : Byte) (bytes : List Byte), s.regs.data.wf →
    (bytes.length ≤ 65535 → encodeWord (.respondWithData request bytes) =
      0x32000000 ||| (request.setWidth 32 <<< 16) ||| BitVec.ofNat 32 bytes.length) ∧
    (s.regs.length.toNat + bytes.length ≤ s.cfg.capacity.toNat →
      ∃ t, exec (.respondWithData request bytes) s = .next t ∧
        t = Spec.after s { s.regs with request := request, response := 0x00, length := t.regs.length,
                                       data := t.regs.data, checksum := crc16 (Spec.window t.regs),
                                       header := 0x5555 } .ok 0 ∧
        t.regs.length.toNat = s.regs.length.toNat + bytes.length ∧
        ∀ a, t.regs.data.read a =
          if s.regs.length.toNat ≤ a ∧ a < s.regs.length.toNat + bytes.length then
            bytes.getD (a - s.regs.length.toNat) 0
          else s.regs.data.read a) ∧
    (s.cfg.capacity.toNat < s.regs.length.toNat + bytes.length →
      exec (.respondWithData request bytes) s =
        .next (Spec.after s { s.regs with request := request, response := 0xFF } .packetOverflow 0))

/-- 43_packing_and_response.md R178: RESPOND_WITH_ERROR sets the codes, empties the payload without clearing DATA, and
packs; it succeeds in every state. -/
def Obligations.RespondWithErrorEmptiesThePayloadAndPacks : Prop :=
  ∀ (s : State) (request code : Byte),
    encodeWord (.respondWithError request code) = 0x33000000 ||| (request.setWidth 32 <<< 16) ||| code.setWidth 32 ∧
    exec (.respondWithError request code) s =
      .next (Spec.after s { s.regs with request := request, response := code, length := 0,
                                        checksum := crc16 [request, code, 0x00, 0x00], header := 0x5555 } .ok 0)

/-- 30_encoding.md R83: on their success paths the helpers leave the registers that the sequences of single commands
leave. -/
def Obligations.HelpersEqualTheirSequences : Prop :=
  ∀ s : State,
    (∀ (request : Byte) (bytes : List Byte), s.regs.length.toNat + bytes.length ≤ s.cfg.capacity.toNat →
      ∃ t u, exec (.respondWithData request bytes) s = .next t ∧
        run [.setRequest request, .setPayload bytes, .setResponse 0x00, .pack] s = .next u ∧ t.regs = u.regs) ∧
    (∀ request code : Byte, ∃ t u v, exec (.respondWithError request code) s = .next t ∧
      run [.setRequest request, .setResponse code] s = .next u ∧
      exec .pack { u with regs := { u.regs with length := 0 } } = .next v ∧ t.regs = v.regs) ∧
    (∀ record : List Byte, record.length = 32 → record.getD 29 0 = 0 →
      s.regs.length.toNat + 32 ≤ s.cfg.capacity.toNat →
      ∃ t u, exec (.respondWithIdentity true record) s = .next t ∧
        run [.setPayload record, .pack] s = .next u ∧ t.regs = u.regs)

/-- 43_packing_and_response.md R171: no command outside the list can make a packed packet unpacked. -/
def Obligations.OnlyListedCommandsUnpack : Prop :=
  ∀ (i : Instr) (s t : State), Spec.packed s → Spec.mayUnpack i s = false → exec i s = .next t → Spec.packed t

/-! ## The DataId codec -/

/-- 44_dataid.md section 2 (RESPOND_WITH_IDENTITY): the record is appended and the packet packed, REQUEST and RESPONSE
untouched; PacketOverflow writes nothing; raw mode and a name of 30 bytes fault, in that order (log 4). -/
def Obligations.RespondWithIdentityAppendsTheRecordAndPacks : Prop :=
  ∀ (s : State) (record : List Byte), s.regs.data.wf → record.length = 32 →
    encodeWord (.respondWithIdentity true record) = 0x40010020 ∧
    encodeWord (.respondWithIdentity false record) = 0x40000020 ∧
    exec (.respondWithIdentity false record) s = .next (Spec.faulted s .unsupported) ∧
    (record.getD 29 0 ≠ 0 → exec (.respondWithIdentity true record) s = .next (Spec.faulted s .nameTooLong)) ∧
    (record.getD 29 0 = 0 → s.cfg.capacity.toNat < s.regs.length.toNat + 32 →
      exec (.respondWithIdentity true record) s = .next (Spec.after s s.regs .packetOverflow 0)) ∧
    (record.getD 29 0 = 0 → s.regs.length.toNat + 32 ≤ s.cfg.capacity.toNat →
      ∃ t, exec (.respondWithIdentity true record) s = .next t ∧
        t = Spec.after s { s.regs with length := t.regs.length, data := t.regs.data,
                                       checksum := crc16 (Spec.window t.regs), header := 0x5555 } .ok 0 ∧
        t.regs.length.toNat = s.regs.length.toNat + 32 ∧
        ∀ a, t.regs.data.read a =
          if s.regs.length.toNat ≤ a ∧ a < s.regs.length.toNat + 32 then record.getD (a - s.regs.length.toNat) 0
          else s.regs.data.read a)

/-- 44_dataid.md section 3 (DATAID_DECODE): the first 32 payload bytes as a record, no register written; the faults in
their order (log 4). -/
def Obligations.DataidDecodeReturnsTheFirst32Bytes : Prop :=
  encodeWord .dataidDecode = 0x41000000 ∧
  ∀ s : State,
    (s.regs.length.toNat < 32 → exec .dataidDecode s = .next (Spec.faulted s .shortPayload)) ∧
    (32 ≤ s.regs.length.toNat → s.cfg.capacity.toNat < 32 →
      exec .dataidDecode s = .next (Spec.faulted s .lengthExceedsCapacity)) ∧
    (32 ≤ s.regs.length.toNat → 32 ≤ s.cfg.capacity.toNat →
      exec .dataidDecode s = .next { s with
        results := .status .ok 0 (some ((List.range 32).map s.regs.data.read)) :: s.results })

/-- 44_dataid.md R190, R191: a record built from a name of at most 29 bytes has 32 bytes, byte 29 zero, the name padded
with zeros, and max_size low byte first; a longer name gives no record. -/
def Obligations.RecordHoldsNameAndMaxSize : Prop :=
  ∀ (name : List Byte) (maxSize : Half),
    (29 < name.length → dataIdRecord name maxSize = none) ∧
    (name.length ≤ 29 → ∃ record, dataIdRecord name maxSize = some record ∧ record.length = 32 ∧ record.getD 29 0 = 0 ∧
      (∀ k, k < 30 → record.getD k 0 = name.getD k 0) ∧ record.getD 30 0 = Spec.lo maxSize ∧
      record.getD 31 0 = Spec.hi maxSize ∧ (recordName record).length = 30 ∧ recordMaxSize record = maxSize)

/-- 44_dataid.md R198, first part: from LENGTH = 0, an identity reply decodes back to its record. -/
def Obligations.IdentityReplyDecodesToItsRecord : Prop :=
  ∀ (s : State) (record : List Byte), s.regs.data.wf → s.regs.length = 0 → 32 ≤ s.cfg.capacity.toNat →
    record.length = 32 → record.getD 29 0 = 0 →
    ∃ t, run [.respondWithIdentity true record, .dataidDecode] s = .next t ∧
      t.results = [.status .ok 0 (some record), .status .ok 0 none] ++ s.results

/-! ## Fields -/

/-- 45_fields_and_resets.md R210, R211: the setters write their code and nothing else; every value is accepted. A packed
packet stops being packed unless the request written is the old one. -/
def Obligations.SettersWriteTheirCode : Prop :=
  ∀ (s : State) (v : Byte),
    encodeWord (.setRequest v) = 0x50000000 ||| (v.setWidth 32 <<< 16) ∧
    encodeWord (.setResponse v) = 0x51000000 ||| (v.setWidth 32 <<< 16) ∧
    exec (.setRequest v) s = .next (Spec.after s { s.regs with request := v } .ok 0) ∧
    exec (.setResponse v) s = .next (Spec.after s { s.regs with response := v } .ok 0) ∧
    (Spec.packed s → ∀ t, exec (.setRequest v) s = .next t → (Spec.packed t ↔ v = s.regs.request))

/-- 45_fields_and_resets.md R212 to R216, R218, R219: each getter returns its field zero-extended and writes no
register. -/
def Obligations.GettersReturnTheirField : Prop :=
  encodeWord .getHeader = 0x52000000 ∧ encodeWord .getChecksum = 0x53000000 ∧ encodeWord .getRequest = 0x54000000 ∧
  encodeWord .getResponse = 0x55000000 ∧ encodeWord .getDataLength = 0x56000000 ∧
  encodeWord .getStatus = 0x58000000 ∧ encodeWord .getCapacity = 0x59000000 ∧
  ∀ s : State,
    exec .getHeader s = .next (Spec.after s s.regs .ok (s.regs.header.setWidth 32)) ∧
    exec .getChecksum s = .next (Spec.after s s.regs .ok (s.regs.checksum.setWidth 32)) ∧
    exec .getRequest s = .next (Spec.after s s.regs .ok (s.regs.request.setWidth 32)) ∧
    exec .getResponse s = .next (Spec.after s s.regs .ok (s.regs.response.setWidth 32)) ∧
    exec .getDataLength s = .next (Spec.after s s.regs .ok (s.regs.length.setWidth 32)) ∧
    exec .getStatus s = .next (Spec.after s s.regs .ok (s.regs.status.code.setWidth 32)) ∧
    exec .getCapacity s = .next (Spec.after s s.regs .ok (s.cfg.capacity.setWidth 32))

/-- 45_fields_and_resets.md section 2 (GET_DATA_BYTE): every index below CAPACITY is readable, past LENGTH too; any other
faults (log 4). -/
def Obligations.GetDataByteReadsTheWholeBuffer : Prop :=
  ∀ (s : State) (index : Half),
    encodeWord (.getDataByte index) = 0x57000000 ||| index.setWidth 32 ∧
    (index.toNat < s.cfg.capacity.toNat → exec (.getDataByte index) s =
      .next (Spec.after s s.regs .ok ((s.regs.data.read index.toNat).setWidth 32))) ∧
    (s.cfg.capacity.toNat ≤ index.toNat → exec (.getDataByte index) s = .next (Spec.faulted s .indexOutOfRange))

/-! ## The whole machine -/

/-- 60_exceptions.md R246, R248: a command faults exactly for the listed causes, the first in order, and a fault writes
no register; otherwise it returns a status. (A fault is a next state: log 4.) -/
def Obligations.FaultsExactlyForTheListedCauses : Prop :=
  ∀ (i : Instr) (s : State),
    (∀ c, Spec.faultCause i s = some c → exec i s = .next (Spec.faulted s c)) ∧
    (Spec.faultCause i s = none → ∃ r st v record, exec i s =
      .next { cfg := s.cfg, regs := r, pending := s.pending, results := .status st v record :: s.results })

/-- 10_state.md R29: only CONSUME_BYTE, NEXT_BYTE, VALIDATE, RESET_LAZY and RESET_FULL write STATUS, the resets with Ok;
GET_STATUS reads it, and under CURSOR_RULES construction does not. -/
def Obligations.OnlyFiveCommandsWriteStatus : Prop :=
  (∀ (i : Instr) (s t : State), Spec.writesStatus i = false → exec i s = .next t → t.regs.status = s.regs.status) ∧
  (∀ s : State, (∃ t, exec .resetLazy s = .next t ∧ t.regs.status = .ok) ∧
    (∃ t, exec .resetFull s = .next t ∧ t.regs.status = .ok) ∧
    exec .getStatus s = .next (Spec.after s s.regs .ok (s.regs.status.code.setWidth 32))) ∧
  (∀ (s : State) (b : Byte) (st : Status), s.cfg.postTerminalMode = .cursorRules →
    exec (.consumeByte b) { s with regs := { s.regs with status := st } } = exec (.consumeByte b) s)

/-- 10_state.md R21 to R28: every other register is written only by the commands named for it. -/
def Obligations.RegistersAreWrittenOnlyByTheirCommands : Prop :=
  ∀ (i : Instr) (s t : State), exec i s = .next t →
    (Spec.writesHeader i = false → t.regs.header = s.regs.header) ∧
    (Spec.writesChecksum i = false → t.regs.checksum = s.regs.checksum) ∧
    (Spec.writesRequest i = false → t.regs.request = s.regs.request) ∧
    (Spec.writesResponse i = false → t.regs.response = s.regs.response) ∧
    (Spec.writesLength i = false → t.regs.length = s.regs.length) ∧
    (Spec.writesData i = false → ∀ a, t.regs.data.read a = s.regs.data.read a) ∧
    (Spec.writesCursor i = false → t.regs.cursor = s.regs.cursor) ∧
    (Spec.writesDataCursor i = false → t.regs.dataCursor = s.regs.dataCursor)

/-- 10_state.md R25: LENGTH <= CAPACITY is kept by every command, except that CONSUME_BYTE at cursors 6 and 7 stores the
received value. -/
def Obligations.LengthStaysWithinCapacity : Prop :=
  ∀ (i : Instr) (s t : State), s.regs.length.toNat ≤ s.cfg.capacity.toNat → exec i s = .next t →
    (∀ b, i = .consumeByte b → s.regs.cursor.toNat ≠ 6 ∧ s.regs.cursor.toNat ≠ 7) →
    t.regs.length.toNat ≤ t.cfg.capacity.toNat

/-- 10_state.md R21, R26 (the buffer ends at CAPACITY), R28, R37, 30_encoding.md R73: every step from every state that has
the invariant keeps it. The clause dataWf, that the list of cells is in canonical form, is the model's choice (log 5), no
rule of the spec. -/
def Obligations.EveryStepKeepsTheInvariant : Prop :=
  ∀ s t : State, s.Inv → step s = .next t → t.Inv

/-- 70_reset_and_hazards.md R270: a new engine of any configuration has the invariant, State.reset (the configuration of
log 2) among them. The invariant's clause dataWf is the model's choice (log 5), no rule of the spec. -/
def Obligations.CreationHasTheInvariant : Prop :=
  (∀ cfg, (State.init cfg).Inv) ∧ State.reset.Inv

/-- 10_state.md R36 and 60_exceptions.md R240, R245 with logs 3 and 4: a step never stops the engine, never changes
CAPACITY or POST_TERMINAL_MODE, returns at most one result and never removes one, so the record of a fault stays. -/
def Obligations.StepKeepsConfigurationAndRecord : Prop :=
  ∀ s : State, ∃ t, step s = .next t ∧ t.cfg = s.cfg ∧
    (t = s ∨ ∃ res, t.results = res :: s.results) ∧ (s.faultFree = false → t.faultFree = false)

/-- 20_memory.md R58: the commands with no side effect write no register, and repeating one with no command between
returns the same result. -/
def Obligations.SideEffectFreeCommandsRepeat : Prop :=
  ∀ (i : Instr) (s : State), Spec.sideEffectFree i = true →
    ∃ t u, exec i s = .next t ∧ exec i t = .next u ∧ t.regs = s.regs ∧ u.regs = s.regs ∧
      u.results.head? = t.results.head?

/-- 00_scope.md R5, 20_memory.md R61: what a command does depends on the registers and the parameters alone, not on the
commands still to come or the results already returned. -/
def Obligations.CommandsDependOnlyOnRegistersAndParameters : Prop :=
  ∀ (i : Instr) (s s' t : State), s'.cfg = s.cfg → s'.regs = s.regs → exec i s = .next t →
    ∃ t', exec i s' = .next t' ∧ t'.regs = t.regs ∧ t'.results.head? = t.results.head?

/-- 30_encoding.md R73, R76, R77: the fields of the result word for every outcome, the value word, and that only
DATAID_DECODE returns a record, of 32 bytes. -/
def Obligations.ResultWordsCarryTheirFields : Prop :=
  (∀ st v record, (Result.status st v record).r0.toNat = st.code.toNat * 2 ^ 24 ∧ (Result.status st v record).r1 = v) ∧
  (∀ c, (Result.fault c).r0.toNat = 2 ^ 31 + c.code.toNat * 2 ^ 16 ∧ (Result.fault c).r1 = 0 ∧
    (Result.fault c).record? = none) ∧
  [Status.ok, .packetBuilding, .packetReceived, .checksumError, .headerNotFound, .packetOverflow,
    .emissionFinished].map Status.code = [0, 1, 2, 3, 4, 5, 6] ∧
  [FaultCode.illegalCommand, .indexOutOfRange, .lengthExceedsCapacity, .unsupported, .nameTooLong, .shortPayload,
    .consumeAfterTerminal].map FaultCode.code = [0x01, 0x02, 0x03, 0x04, 0x05, 0x06, 0x07] ∧
  (∀ (i : Instr) (s t : State) (res : Result) (record : List Byte), exec i s = .next t → t.results = res :: s.results →
    res.record? = some record → i = .dataidDecode ∧ record.length = 32)

/-- 00_scope.md R14: the terminal statuses. -/
def Obligations.TerminalStatusesAreTheFour : Prop :=
  ∀ st : Status, st.terminal = true ↔
    st = .packetReceived ∨ st = .checksumError ∨ st = .headerNotFound ∨ st = .packetOverflow

/-- 41_construction.md R134: pack, emit with NEXT_BYTE, feed to a new engine of any configuration whose CAPACITY is at
least LENGTH: it receives the packet, field for field. -/
def Obligations.PackedFrameRoundTripsOverTheWire : Prop :=
  ∀ (s : State) (cfg : Config), s.regs.length.toNat ≤ s.cfg.capacity.toNat →
    s.regs.length.toNat ≤ cfg.capacity.toNat →
    ∃ u t, run ([.pack, .resetCursor] ++ List.replicate (8 + s.regs.length.toNat) .nextByte) s = .next u ∧
      run (((u.results.take (8 + s.regs.length.toNat)).reverse.map (fun res => res.r1.setWidth 8)).map .consumeByte)
        (State.init cfg) = .next t ∧
      t.regs.status = .packetReceived ∧ t.regs.request = s.regs.request ∧ t.regs.response = s.regs.response ∧
      t.regs.length = s.regs.length ∧ (∀ a, a < s.regs.length.toNat → t.regs.data.read a = s.regs.data.read a) ∧
      t.regs.header = 0x5555 ∧ t.regs.checksum = u.regs.checksum

/-- 44_dataid.md R198, second part: an identity reply emitted, fed to a new engine with CAPACITY >= 32 and decoded there,
gives the record. -/
def Obligations.IdentityRoundTripsOverTheWire : Prop :=
  ∀ (s : State) (cfg : Config) (record : List Byte), s.regs.data.wf → s.regs.length = 0 →
    32 ≤ s.cfg.capacity.toNat → 32 ≤ cfg.capacity.toNat → record.length = 32 → record.getD 29 0 = 0 →
    ∃ u t, run ([.respondWithIdentity true record, .resetCursor] ++ List.replicate 40 .nextByte) s = .next u ∧
      run (((u.results.take 40).reverse.map (fun res => res.r1.setWidth 8)).map .consumeByte ++ [.dataidDecode])
        (State.init cfg) = .next t ∧
      t.results.head? = some (.status .ok 0 (some record))
end

