-- ==== Sys2Proof/Laws/Decode.lean ====
section
/-! SUPPORT. The laws of the command decoder's parts. -/

namespace Sys2Proof

theorem takeBurst_append (burst rest : List Byte) : takeBurst burst.length (burst ++ rest) = some (burst, rest) := by
  induction burst with
  | nil => rfl
  | cons b burst ih => simp [takeBurst, ih]

/-- A burst taken is the front of the stream. -/
theorem takeBurst_eq_some {n : Nat} {bytes burst rest : List Byte} (h : takeBurst n bytes = some (burst, rest)) :
    burst.length = n ∧ bytes = burst ++ rest := by
  induction n generalizing bytes burst with
  | zero =>
    obtain ⟨rfl, rfl⟩ : [] = burst ∧ bytes = rest := by simpa [takeBurst] using h
    exact ⟨rfl, rfl⟩
  | succ n ih =>
    cases bytes with
    | nil => cases h
    | cons b bytes =>
      cases hb : takeBurst n bytes with
      | none => simp [takeBurst, hb] at h
      | some p =>
        obtain ⟨rfl, rfl⟩ : b :: p.1 = burst ∧ p.2 = rest := by simpa [takeBurst, hb] using h
        obtain ⟨h1, h2⟩ := ih hb
        exact ⟨by simp [h1], by simp [h2]⟩

/-- A burst is not there exactly when the stream is too short. -/
theorem takeBurst_eq_none_iff (n : Nat) (bytes : List Byte) : takeBurst n bytes = none ↔ bytes.length < n := by
  induction n generalizing bytes with
  | zero => simp [takeBurst]
  | succ n ih =>
    cases bytes with
    | nil => simp [takeBurst]
    | cons b bytes =>
      rw [takeBurst, List.length_cons, Nat.add_lt_add_iff_right, ← ih]
      cases takeBurst n bytes <;> simp

/-- The word joined from its four bytes is the word. -/
theorem wordOfBytes_extract (w : Word) :
    wordOfBytes (w.extractLsb' 0 8) (w.extractLsb' 8 8) (w.extractLsb' 16 8) (w.extractLsb' 24 8) = w := by
  unfold wordOfBytes
  apply BitVec.eq_of_getElem_eq
  intro i hi
  simp only [BitVec.getElem_append, BitVec.getElem_extractLsb']
  rw [← BitVec.getLsbD_eq_getElem hi]
  split
  · simp
  · split
    · rw [show 8 + (i - 8) = i by omega]
    · split
      · rw [show 16 + (i - 8 - 8) = i by omega]
      · rw [show 24 + (i - 8 - 8 - 8) = i by omega]

/-- The row found for an OP has that OP. -/
theorem find_code {w : Word} {op : Opcode} (h : Opcode.all.find? (fun op => op.code == wordOp w) = some op) :
    op.code = wordOp w := by simpa using List.find?_some h

/-- Each row is found by its own OP: the codes are distinct. -/
theorem find_of_code (op : Opcode) : Opcode.all.find? (fun o => o.code == op.code) = some op := by
  cases op <;> decide

end Sys2Proof
end

