-- ==== Sys2Proof/Laws/Memory.lean ====
section
/-! SUPPORT. The laws of the payload buffer: reads after writes, and that every write keeps the canonical form. -/

namespace Sys2Proof.Machine

theorem Memory.wf_nil : Memory.wf [] := by decide

theorem Memory.wf_tail {c : Host.Cell} {m : Memory} (h : Memory.wf (c :: m)) : m.wf :=
  ⟨(List.pairwise_cons.mp h.1).2, fun d hd => h.2 d (List.mem_cons_of_mem _ hd)⟩

theorem Memory.read_nil (a : Nat) : Memory.read [] a = Memory.unlisted := rfl

theorem Memory.read_cons (c : Host.Cell) (m : Memory) (a : Nat) :
    Memory.read (c :: m) a = if c.1 = a then c.2 else m.read a := rfl

/-- A byte below every listed index reads as unlisted. -/
theorem Memory.read_below {m : Memory} {a : Nat} (h : ∀ c ∈ m, a < c.1) : m.read a = Memory.unlisted := by
  induction m with
  | nil => rfl
  | cons c m ih =>
    have hc := h c List.mem_cons_self
    rw [Memory.read_cons, if_neg (by omega), ih fun d hd => h d (List.mem_cons_of_mem _ hd)]

/-- Where the written cell stands in front of cells above it. -/
theorem Memory.read_cell_append {m : Memory} {a : Nat} {b : Byte} (h : ∀ c ∈ m, a < c.1) (x : Nat) :
    Memory.read (Memory.cell a b ++ m) x = if x = a then b else m.read x := by
  unfold Memory.cell
  split
  · next hb =>
    by_cases hx : x = a
    · subst hx; simp [Memory.read_below h, hb]
    · simp [hx]
  · by_cases hx : x = a
    · simp [Memory.read_cons, hx]
    · simp [Memory.read_cons, hx, Ne.symm hx]

/-- A read after a write: the byte written at its index, every other byte as before. -/
theorem Memory.read_write {m : Memory} (hm : m.wf) (a : Nat) (b : Byte) (x : Nat) :
    (m.write a b).read x = if x = a then b else m.read x := by
  induction m with
  | nil =>
    rw [Memory.write]
    simpa using Memory.read_cell_append (m := []) (a := a) (b := b) (by simp) x
  | cons c m ih =>
    have hgt : ∀ d ∈ m, c.1 < d.1 := (List.pairwise_cons.mp hm.1).1
    rw [Memory.write]
    split
    · next hlt =>
      exact Memory.read_cell_append (fun d hd => by
        rcases List.mem_cons.mp hd with rfl | hd
        · exact hlt
        · exact lt_trans hlt (hgt d hd)) x
    split
    · next _ heq =>
      rw [Memory.read_cell_append (fun d hd => heq ▸ hgt d hd) x, Memory.read_cons]
      by_cases hx : x = a
      · simp [hx]
      · simp [hx, show ¬ c.1 = x by omega]
    · next hlt hne =>
      rw [Memory.read_cons, Memory.read_cons, ih (Memory.wf_tail hm)]
      by_cases hx : x = a
      · simp [hx, show ¬ c.1 = a by omega]
      · simp [hx]

/-- The cells of a memory after a write are the old ones and the one written. -/
theorem Memory.mem_write {m : Memory} {a : Nat} {b : Byte} {c : Host.Cell} (h : c ∈ m.write a b) :
    c ∈ m ∨ (c = (a, b) ∧ b ≠ Memory.unlisted) := by
  have hcell : ∀ {d : Host.Cell}, d ∈ Memory.cell a b → d = (a, b) ∧ b ≠ Memory.unlisted := by
    intro d hd
    unfold Memory.cell at hd
    split at hd
    · cases hd
    · next hb => exact ⟨List.mem_singleton.mp hd, hb⟩
  induction m with
  | nil => exact .inr (hcell h)
  | cons d m ih =>
    rw [Memory.write] at h
    split at h
    · rcases List.mem_append.mp h with h | h
      · exact .inr (hcell h)
      · exact .inl h
    split at h
    · rcases List.mem_append.mp h with h | h
      · exact .inr (hcell h)
      · exact .inl (List.mem_cons_of_mem _ h)
    · rcases List.mem_cons.mp h with rfl | h
      · exact .inl List.mem_cons_self
      · exact (ih h).imp_left (List.mem_cons_of_mem _)

theorem Memory.wf_cell_append {m : Memory} {a : Nat} {b : Byte} (hm : m.wf) (h : ∀ c ∈ m, a < c.1) :
    Memory.wf (Memory.cell a b ++ m) := by
  unfold Memory.cell
  split
  · simpa using hm
  · next hb =>
    refine ⟨List.pairwise_cons.mpr ⟨h, hm.1⟩, fun c hc => ?_⟩
    rcases List.mem_cons.mp hc with rfl | hc
    · exact hb
    · exact hm.2 c hc

/-- A write keeps the canonical form. -/
theorem Memory.wf_write {m : Memory} (hm : m.wf) (a : Nat) (b : Byte) : (m.write a b).wf := by
  induction m with
  | nil => rw [Memory.write]; simpa using Memory.wf_cell_append (a := a) (b := b) Memory.wf_nil (by simp)
  | cons c m ih =>
    have hgt : ∀ d ∈ m, c.1 < d.1 := (List.pairwise_cons.mp hm.1).1
    rw [Memory.write]
    split
    · next hlt =>
      exact Memory.wf_cell_append hm fun d hd => by
        rcases List.mem_cons.mp hd with rfl | hd
        · exact hlt
        · exact lt_trans hlt (hgt d hd)
    split
    · next _ heq => exact Memory.wf_cell_append (Memory.wf_tail hm) fun d hd => heq ▸ hgt d hd
    · next hlt hne =>
      have ih' := ih (Memory.wf_tail hm)
      refine ⟨List.pairwise_cons.mpr ⟨fun d hd => ?_, ih'.1⟩, fun d hd => ?_⟩
      · rcases Memory.mem_write hd with hd | ⟨rfl, -⟩
        · exact hgt d hd
        · show c.1 < a
          omega
      · rcases List.mem_cons.mp hd with rfl | hd
        · exact hm.2 _ List.mem_cons_self
        · exact ih'.2 d hd

/-- A run of writes keeps the canonical form. -/
theorem Memory.wf_writeRun {m : Memory} (hm : m.wf) (a : Nat) (bytes : List Byte) : (m.writeRun a bytes).wf := by
  induction bytes generalizing m a with
  | nil => exact hm
  | cons b bytes ih => exact ih (Memory.wf_write hm a b) (a + 1)

/-- A read after a run of writes: the bytes written at their indices, every other byte as before. -/
theorem Memory.read_writeRun {m : Memory} (hm : m.wf) (a : Nat) (bytes : List Byte) (x : Nat) :
    (m.writeRun a bytes).read x = if a ≤ x ∧ x < a + bytes.length then bytes.getD (x - a) 0 else m.read x := by
  induction bytes generalizing m a with
  | nil => simp [Memory.writeRun, show ¬ (a ≤ x ∧ x < a) by omega]
  | cons b bytes ih =>
    rw [Memory.writeRun, ih (Memory.wf_write hm a b) (a + 1), Memory.read_write hm]
    by_cases h : a + 1 ≤ x ∧ x < a + 1 + bytes.length
    · rw [if_pos h, if_pos (by simp only [List.length_cons]; omega), show x - a = (x - (a + 1)) + 1 by omega,
        List.getD_cons_succ]
    · rw [if_neg h]
      by_cases hx : x = a
      · subst hx; simp
      · rw [if_neg hx, if_neg (by simp only [List.length_cons]; omega)]

/-- The cells after a run of writes lie inside any bound that holds for the old cells and the run. -/
theorem Memory.bound_writeRun {m : Memory} {n a : Nat} {bytes : List Byte} (hm : ∀ c ∈ m, c.1 < n)
    (h : a + bytes.length ≤ n) : ∀ c ∈ m.writeRun a bytes, c.1 < n := by
  induction bytes generalizing m a with
  | nil => exact hm
  | cons b bytes ih =>
    simp only [List.length_cons] at h
    refine ih (fun c hc => ?_) (by omega)
    rcases Memory.mem_write hc with hc | ⟨rfl, -⟩
    · exact hm c hc
    · show a < n
      omega

/-- A run of reads is the list of the single reads. -/
theorem Memory.readRun_eq_map (m : Memory) (a n : Nat) :
    m.readRun a n = (List.range n).map (fun i => m.read (a + i)) := by
  induction n generalizing a with
  | zero => rfl
  | succ n ih =>
    rw [Memory.readRun, ih, List.range_succ_eq_map, List.map_cons, List.map_map]
    simp [Function.comp_def, Nat.add_comm, Nat.add_left_comm]

@[simp] theorem Memory.readRun_length (m : Memory) (a n : Nat) : (m.readRun a n).length = n := by
  simp [Memory.readRun_eq_map]

/-- Reads that agree give equal runs. -/
theorem Memory.readRun_congr {m m' : Memory} {a n : Nat} (h : ∀ x, a ≤ x → x < a + n → m.read x = m'.read x) :
    m.readRun a n = m'.readRun a n := by
  simp only [Memory.readRun_eq_map]
  refine List.map_congr_left fun i hi => h _ (by omega) ?_
  have := List.mem_range.mp hi
  omega

end Sys2Proof.Machine
end

