-- ==== Sys2Proof/Laws/Ops.lean ====
section
/-! SUPPORT. One lemma per shared operation that says everything it can do. -/

namespace Sys2Proof.Machine

theorem reply_eq (s : State) (r : Regs) (st : Status) (v : Word) :
    s.reply r st v = .next { s with regs := r, results := .status st v none :: s.results } := rfl

theorem replyRecord_eq (s : State) (r : Regs) (st : Status) (v : Word) (record : List Byte) :
    s.replyRecord r st v record = .next { s with regs := r, results := .status st v (some record) :: s.results } := rfl

/-- Taking a command fault writes no register (spec 60_exceptions.md R245). -/
theorem raise_eq (s : State) (c : FaultCode) : s.raise c = .next { s with results := .fault c :: s.results } := rfl

/-- The append writes DATA and LENGTH when the bytes fit, and is `none` when they do not (R172). -/
theorem append_cases (cfg : Config) (r : Regs) (bytes : List Byte) :
    (cfg.capacity.toNat < r.length.toNat + bytes.length ∧ r.append cfg bytes = none) ∨
    (r.length.toNat + bytes.length ≤ cfg.capacity.toNat ∧
      r.append cfg bytes = some { r with
        data := r.data.writeRun r.length.toNat bytes
        length := BitVec.ofNat 16 (r.length.toNat + bytes.length) }) := by
  by_cases h : cfg.capacity.toNat < r.length.toNat + bytes.length
  · exact .inl ⟨h, if_pos h⟩
  · exact .inr ⟨Nat.le_of_not_lt h, if_neg h⟩

/-- The length after an append that fits does not wrap. -/
theorem append_length_toNat (cfg : Config) (r : Regs) (bytes : List Byte)
    (h : r.length.toNat + bytes.length ≤ cfg.capacity.toNat) :
    (BitVec.ofNat 16 (r.length.toNat + bytes.length)).toNat = r.length.toNat + bytes.length := by
  have := cfg.capacity.isLt
  rw [BitVec.toNat_ofNat, Nat.mod_eq_of_lt (by omega)]

theorem window_cases (cfg : Config) (r : Regs) :
    (cfg.capacity.toNat < r.length.toNat ∧ r.window cfg = none) ∨
    (r.length.toNat ≤ cfg.capacity.toNat ∧ r.window cfg = some r.windowBytes) := by
  by_cases h : cfg.capacity.toNat < r.length.toNat
  · exact .inl ⟨h, if_pos h⟩
  · exact .inr ⟨Nat.le_of_not_lt h, if_neg h⟩

theorem dataByte_cases (cfg : Config) (r : Regs) (i : Nat) :
    (cfg.capacity.toNat ≤ i ∧ r.dataByte cfg i = none) ∨
    (i < cfg.capacity.toNat ∧ r.dataByte cfg i = some (r.data.read i)) := by
  by_cases h : i < cfg.capacity.toNat
  · exact .inr ⟨h, if_pos h⟩
  · exact .inl ⟨Nat.le_of_not_lt h, if_neg h⟩

/-- A frame byte is missing exactly past the buffer (20_memory.md R53). -/
theorem frameByte_eq_none_iff (cfg : Config) (r : Regs) (o : Nat) :
    r.frameByte cfg o = none ↔ headerSize + cfg.capacity.toNat ≤ o := by
  rcases o with _ | _ | _ | _ | _ | _ | _ | _ | i <;>
    simp [Regs.frameByte, Regs.dataByte, headerSize] <;> omega

/-- A frame byte of the payload part. -/
theorem frameByte_payload (cfg : Config) (r : Regs) (i : Nat) : r.frameByte cfg (i + 8) = r.dataByte cfg i := rfl

/-- The store condition of R126 as a proposition. -/
theorem mayStore_iff (cfg : Config) (r : Regs) :
    r.mayStore cfg = true ↔ r.cursor.toNat < headerSize + cfg.capacity.toNat ∧ r.dataCursor.toNat < r.length.toNat ∧
      r.dataCursor.toNat < cfg.capacity.toNat := by
  simp [Regs.mayStore, and_assoc]

/-- CONSUME_BYTE at a cursor of 8 or more is the payload arm (R126, R127). -/
theorem consume_of_payload (cfg : Config) (r : Regs) (b : Byte) (h : headerSize ≤ r.cursor.toNat) :
    r.consume cfg b = r.consumePayload cfg b := by
  obtain ⟨k, hk⟩ : ∃ k, r.cursor.toNat = k + 8 := ⟨r.cursor.toNat - 8, by simp only [headerSize] at h; omega⟩
  simp only [Regs.consume, hk]

/-- The bits of a 16-bit field put together from its two bytes. -/
theorem getLsbD_half (hi lo : Byte) (i : Nat) :
    BitVec.getLsbD (w := 16) (hi ++ lo) i = if i < 8 then lo.getLsbD i else hi.getLsbD (i - 8) :=
  BitVec.getLsbD_append

/-- Joining the two bytes of a field gives the field back. -/
theorem highByte_append_lowByte (h : Half) : (highByte h ++ lowByte h : Half) = h := by
  apply BitVec.eq_of_getLsbD_eq
  intro i hi
  rw [getLsbD_half, highByte, lowByte, BitVec.getLsbD_extractLsb', BitVec.getLsbD_extractLsb']
  split
  · simp [*]
  · simp [show i - 8 < 8 by omega, show 8 + (i - 8) = i by omega]

@[simp] theorem lowByte_append (hi lo : Byte) : lowByte (hi ++ lo) = lo := by
  apply BitVec.eq_of_getLsbD_eq
  intro i h
  rw [lowByte, BitVec.getLsbD_extractLsb', getLsbD_half]
  simp [h]

@[simp] theorem highByte_append (hi lo : Byte) : highByte (hi ++ lo) = hi := by
  apply BitVec.eq_of_getLsbD_eq
  intro i h
  rw [highByte, BitVec.getLsbD_extractLsb', getLsbD_half]
  simp [h]

/-- A field received low byte first, then high byte, holds both (41_construction.md R122, R123, R125). -/
theorem setHigh_setLow (lo hi : Byte) : setHigh (setLow lo) hi = hi ++ lo := by
  have : lowByte (setLow lo) = lo := by
    apply BitVec.eq_of_getLsbD_eq
    intro i h
    rw [lowByte, setLow, BitVec.getLsbD_extractLsb']
    simp [h]
    omega
  rw [setHigh, this]

end Sys2Proof.Machine
end

