-- ==== Sys2Proof/Laws/PerInstr.lean ====
section
/-! SUPPORT. One lemma per command about its encoding. Family WordLegal: the word of a command has the command's OP and
its operand bits, and every bit that the row marks 0 is 0. -/

namespace Sys2Proof

/-- The bits of a word made of an OP and 24 operand bits. -/
theorem getLsbD_word (c : Byte) (x : BitVec 24) (i : Nat) :
    BitVec.getLsbD (w := 32) (c ++ x) i = if i < 24 then x.getLsbD i else c.getLsbD (i - 24) :=
  BitVec.getLsbD_append

/-- The bits of operand fields A and B. -/
theorem getLsbD_operands (a : Byte) (b : Half) (i : Nat) :
    BitVec.getLsbD (w := 24) (a ++ b) i = if i < 16 then b.getLsbD i else a.getLsbD (i - 16) :=
  BitVec.getLsbD_append

theorem wordOp_append (c : Byte) (x : BitVec 24) : wordOp (c ++ x) = c := by
  apply BitVec.eq_of_getLsbD_eq
  intro i hi
  rw [wordOp, BitVec.getLsbD_extractLsb', getLsbD_word]
  simp [hi]

theorem wordAB_append (c : Byte) (x : BitVec 24) : wordAB (c ++ x) = x := by
  apply BitVec.eq_of_getLsbD_eq
  intro i hi
  rw [wordAB, BitVec.getLsbD_extractLsb', getLsbD_word]
  simp [hi]

end Sys2Proof

namespace Sys2Proof.Laws.WordLegal

/-- The word carries the row's OP and the operands, and no bit the row marks 0 (spec 30_encoding.md R74). -/
def Statement (i : Instr) : Prop :=
  wordOp (encodeWord i) = i.opcode.code ∧ wordAB (encodeWord i) = i.operands ∧ i.operands &&& i.opcode.zeroBits = 0

/-- The first two parts hold of every command; the third is the row's own. -/
theorem of_zeroBits {i : Instr} (h : i.operands &&& i.opcode.zeroBits = 0) : Statement i :=
  ⟨wordOp_append _ _, wordAB_append _ _, h⟩

/-- Operand A over an empty B misses the low 16 bits. -/
theorem byte_zero (a : Byte) : (a ++ (0 : Half) : BitVec 24) &&& 0x00FFFF = 0 := by
  revert a; decide +kernel

/-- Operand B under an empty A misses the high 8 bits. -/
theorem zero_half (b : Half) : ((0 : Byte) ++ b : BitVec 24) &&& 0xFF0000 = 0 := by
  apply BitVec.eq_of_getLsbD_eq
  intro i hi
  rw [BitVec.getLsbD_and, getLsbD_operands]
  split
  · next h =>
    have : (16711680#24).getLsbD i = false := by interval_cases i <;> decide
    simp [this]
  · simp

/-- An 8-bit code in B misses bits 15:8. -/
theorem byte_code (a c : Byte) : (a ++ BitVec.zeroExtend 16 c : BitVec 24) &&& 0x00FF00 = 0 := by
  apply BitVec.eq_of_getLsbD_eq
  intro i hi
  rw [BitVec.getLsbD_and, getLsbD_operands]
  by_cases h : 8 ≤ i ∧ i < 16
  · simp [h.2, show c.getLsbD i = false from BitVec.getLsbD_of_ge _ _ h.1]
  · have : (65280#24).getLsbD i = false := by
      have : i < 8 ∨ 16 ≤ i := by omega
      rcases this with h | h <;> interval_cases i <;> decide
    simp [this]

/-- A flag in A[0], with B = 0x0020, misses A[7:1]. -/
theorem flag_identity (ascii : Bool) :
    (BitVec.zeroExtend 8 (BitVec.ofBool ascii) ++ (0x0020 : Half) : BitVec 24) &&& 0xFE0000 = 0 := by
  cases ascii <;> decide

theorem checksum (store : Bool) : Statement (.checksum store) := of_zeroBits (by cases store <;> decide)
theorem validate : Statement .validate := of_zeroBits (by decide)
theorem consumeByte (b : Byte) : Statement (.consumeByte b) := of_zeroBits (byte_zero b)
theorem nextByte : Statement .nextByte := of_zeroBits (by decide)
theorem resetCursor : Statement .resetCursor := of_zeroBits (by decide)
theorem frameByte (index : BitVec 24) : Statement (.frameByte index) := of_zeroBits BitVec.and_zero
theorem frameLength : Statement .frameLength := of_zeroBits (by decide)
theorem pack : Statement .pack := of_zeroBits (by decide)
theorem setPayload (bytes : List Byte) : Statement (.setPayload bytes) := of_zeroBits (zero_half _)
theorem respondWithData (request : Byte) (bytes : List Byte) : Statement (.respondWithData request bytes) :=
  of_zeroBits BitVec.and_zero
theorem respondWithError (request code : Byte) : Statement (.respondWithError request code) :=
  of_zeroBits (byte_code request code)
theorem respondWithIdentity (ascii : Bool) (record : List Byte) : Statement (.respondWithIdentity ascii record) :=
  of_zeroBits (flag_identity ascii)
theorem dataidDecode : Statement .dataidDecode := of_zeroBits (by decide)
theorem setRequest (v : Byte) : Statement (.setRequest v) := of_zeroBits (byte_zero v)
theorem setResponse (v : Byte) : Statement (.setResponse v) := of_zeroBits (byte_zero v)
theorem getHeader : Statement .getHeader := of_zeroBits (by decide)
theorem getChecksum : Statement .getChecksum := of_zeroBits (by decide)
theorem getRequest : Statement .getRequest := of_zeroBits (by decide)
theorem getResponse : Statement .getResponse := of_zeroBits (by decide)
theorem getDataLength : Statement .getDataLength := of_zeroBits (by decide)
theorem getDataByte (index : Half) : Statement (.getDataByte index) := of_zeroBits (zero_half index)
theorem getStatus : Statement .getStatus := of_zeroBits (by decide)
theorem getCapacity : Statement .getCapacity := of_zeroBits (by decide)
theorem resetLazy : Statement .resetLazy := of_zeroBits (by decide)
theorem resetFull : Statement .resetFull := of_zeroBits (by decide)

end Sys2Proof.Laws.WordLegal
end

