-- ==== Sys2Proof/Laws/State.lean ====
section
/-! SUPPORT. One lemma per field per named update of the registers and of the state, each true by rfl, so that no later
proof unfolds a record update. -/

namespace Sys2Proof.Machine

@[simp] theorem Regs.headerNotFound_header (r : Regs) : r.headerNotFound.header = r.header := rfl
@[simp] theorem Regs.headerNotFound_checksum (r : Regs) : r.headerNotFound.checksum = r.checksum := rfl
@[simp] theorem Regs.headerNotFound_request (r : Regs) : r.headerNotFound.request = r.request := rfl
@[simp] theorem Regs.headerNotFound_response (r : Regs) : r.headerNotFound.response = r.response := rfl
@[simp] theorem Regs.headerNotFound_length (r : Regs) : r.headerNotFound.length = r.length := rfl
@[simp] theorem Regs.headerNotFound_data (r : Regs) : r.headerNotFound.data = r.data := rfl
@[simp] theorem Regs.headerNotFound_cursor (r : Regs) : r.headerNotFound.cursor = 0 := rfl
@[simp] theorem Regs.headerNotFound_dataCursor (r : Regs) : r.headerNotFound.dataCursor = r.dataCursor := rfl
@[simp] theorem Regs.headerNotFound_status (r : Regs) : r.headerNotFound.status = .headerNotFound := rfl

@[simp] theorem Regs.building_header (r : Regs) : r.building.header = r.header := rfl
@[simp] theorem Regs.building_checksum (r : Regs) : r.building.checksum = r.checksum := rfl
@[simp] theorem Regs.building_request (r : Regs) : r.building.request = r.request := rfl
@[simp] theorem Regs.building_response (r : Regs) : r.building.response = r.response := rfl
@[simp] theorem Regs.building_length (r : Regs) : r.building.length = r.length := rfl
@[simp] theorem Regs.building_data (r : Regs) : r.building.data = r.data := rfl
@[simp] theorem Regs.building_cursor (r : Regs) : r.building.cursor = r.cursor + 1 := rfl
@[simp] theorem Regs.building_dataCursor (r : Regs) : r.building.dataCursor = r.dataCursor := rfl
@[simp] theorem Regs.building_status (r : Regs) : r.building.status = .packetBuilding := rfl

@[simp] theorem Regs.complete_header (r : Regs) : r.complete.header = r.header := rfl
@[simp] theorem Regs.complete_checksum (r : Regs) : r.complete.checksum = r.checksum := rfl
@[simp] theorem Regs.complete_request (r : Regs) : r.complete.request = r.request := rfl
@[simp] theorem Regs.complete_response (r : Regs) : r.complete.response = r.response := rfl
@[simp] theorem Regs.complete_length (r : Regs) : r.complete.length = r.length := rfl
@[simp] theorem Regs.complete_data (r : Regs) : r.complete.data = r.data := rfl
@[simp] theorem Regs.complete_cursor (r : Regs) : r.complete.cursor = r.cursor + 1 := rfl
@[simp] theorem Regs.complete_dataCursor (r : Regs) : r.complete.dataCursor = r.dataCursor := rfl
@[simp] theorem Regs.complete_status (r : Regs) : r.complete.status = r.verdict (crc16 r.windowBytes) := rfl

@[simp] theorem Regs.storePayload_header (r : Regs) (b : Byte) : (r.storePayload b).header = r.header := rfl
@[simp] theorem Regs.storePayload_checksum (r : Regs) (b : Byte) : (r.storePayload b).checksum = r.checksum := rfl
@[simp] theorem Regs.storePayload_request (r : Regs) (b : Byte) : (r.storePayload b).request = r.request := rfl
@[simp] theorem Regs.storePayload_response (r : Regs) (b : Byte) : (r.storePayload b).response = r.response := rfl
@[simp] theorem Regs.storePayload_length (r : Regs) (b : Byte) : (r.storePayload b).length = r.length := rfl
@[simp] theorem Regs.storePayload_data (r : Regs) (b : Byte) : (r.storePayload b).data = r.data.write r.dataCursor.toNat b := rfl
@[simp] theorem Regs.storePayload_cursor (r : Regs) (b : Byte) : (r.storePayload b).cursor = r.cursor := rfl
@[simp] theorem Regs.storePayload_dataCursor (r : Regs) (b : Byte) : (r.storePayload b).dataCursor = r.dataCursor + 1 := rfl
@[simp] theorem Regs.storePayload_status (r : Regs) (b : Byte) : (r.storePayload b).status = r.status := rfl

@[simp] theorem Regs.stamp_header (r : Regs) : r.stamp.header = sync := rfl
@[simp] theorem Regs.stamp_checksum (r : Regs) : r.stamp.checksum = crc16 r.windowBytes := rfl
@[simp] theorem Regs.stamp_request (r : Regs) : r.stamp.request = r.request := rfl
@[simp] theorem Regs.stamp_response (r : Regs) : r.stamp.response = r.response := rfl
@[simp] theorem Regs.stamp_length (r : Regs) : r.stamp.length = r.length := rfl
@[simp] theorem Regs.stamp_data (r : Regs) : r.stamp.data = r.data := rfl
@[simp] theorem Regs.stamp_cursor (r : Regs) : r.stamp.cursor = r.cursor := rfl
@[simp] theorem Regs.stamp_dataCursor (r : Regs) : r.stamp.dataCursor = r.dataCursor := rfl
@[simp] theorem Regs.stamp_status (r : Regs) : r.stamp.status = r.status := rfl

@[simp] theorem Regs.clearAllButData_header (r : Regs) : r.clearAllButData.header = 0 := rfl
@[simp] theorem Regs.clearAllButData_checksum (r : Regs) : r.clearAllButData.checksum = 0 := rfl
@[simp] theorem Regs.clearAllButData_request (r : Regs) : r.clearAllButData.request = 0 := rfl
@[simp] theorem Regs.clearAllButData_response (r : Regs) : r.clearAllButData.response = 0 := rfl
@[simp] theorem Regs.clearAllButData_length (r : Regs) : r.clearAllButData.length = 0 := rfl
@[simp] theorem Regs.clearAllButData_data (r : Regs) : r.clearAllButData.data = r.data := rfl
@[simp] theorem Regs.clearAllButData_cursor (r : Regs) : r.clearAllButData.cursor = 0 := rfl
@[simp] theorem Regs.clearAllButData_dataCursor (r : Regs) : r.clearAllButData.dataCursor = 0 := rfl
@[simp] theorem Regs.clearAllButData_status (r : Regs) : r.clearAllButData.status = .ok := rfl

@[simp] theorem State.taken_cfg (s : State) (rest : List Byte) : (s.taken rest).cfg = s.cfg := rfl
@[simp] theorem State.taken_regs (s : State) (rest : List Byte) : (s.taken rest).regs = s.regs := rfl
@[simp] theorem State.taken_pending (s : State) (rest : List Byte) : (s.taken rest).pending = rest := rfl
@[simp] theorem State.taken_results (s : State) (rest : List Byte) : (s.taken rest).results = s.results := rfl

@[simp] theorem State.init_cfg (cfg : Config) : (State.init cfg).cfg = cfg := rfl
@[simp] theorem State.init_regs (cfg : Config) : (State.init cfg).regs = Regs.reset := rfl
@[simp] theorem State.init_pending (cfg : Config) : (State.init cfg).pending = [] := rfl
@[simp] theorem State.init_results (cfg : Config) : (State.init cfg).results = [] := rfl

end Sys2Proof.Machine
end

