-- ==== Sys2Proof/Machine/Assembler.lean ====
section
/-! DEFINITION. The assembler of spec 30_encoding.md R82: one command a line, `;` comments, decimal and 0x numbers, byte
lists in brackets, strings in double quotes. It writes host programs and is no part of the engine. -/

namespace Sys2Proof.Machine

inductive Token where
  | word (chars : List Char)
  | text (chars : List Char)
  | comma
  | openList
  | closeList
  deriving DecidableEq, Repr

inductive LexMode where
  | code
  | text
  | comment
  deriving DecidableEq, Repr

/-- A line read so far: the tokens found and the characters of the one being read, both newest first. -/
structure Lexer where
  found : List Token
  part : List Char
  mode : LexMode
  deriving DecidableEq, Repr

def Lexer.endWord (l : Lexer) : Lexer :=
  if l.part = [] then l else { l with found := .word l.part.reverse :: l.found, part := [] }

def Lexer.add (l : Lexer) (t : Token) : Lexer := { l.endWord with found := t :: l.endWord.found }

/-- One character. 34 is the double quote. -/
def Lexer.push (l : Lexer) (c : Char) : Lexer :=
  match l.mode with
  | .comment => l
  | .text =>
    if c.toNat = 34 then { found := .text l.part.reverse :: l.found, part := [], mode := .code }
    else { l with part := c :: l.part }
  | .code =>
    if c = ';' then { l.endWord with mode := .comment }
    else if c.toNat = 34 then { l.endWord with mode := .text }
    else if c = ',' then l.add .comma
    else if c = '[' then l.add .openList
    else if c = ']' then l.add .closeList
    else if c = ' ' ∨ c = '\t' then l.endWord
    else { l with part := c :: l.part }

/-- The tokens of a line; `none` for a string that does not end. -/
def tokens (line : List Char) : Option (List Token) :=
  let l := line.foldl Lexer.push { found := [], part := [], mode := .code }
  if l.mode = .text then none else some l.endWord.found.reverse

/-- A digit of base 10 or 16. -/
def digit (c : Char) : Option Nat :=
  let n := c.toNat
  if 48 ≤ n ∧ n ≤ 57 then some (n - 48)
  else if 97 ≤ n ∧ n ≤ 102 then some (n - 87)
  else if 65 ≤ n ∧ n ≤ 70 then some (n - 55)
  else none

/-- A number in a base. -/
def digits (base : Nat) (chars : List Char) : Option Nat :=
  if chars = [] then none
  else chars.foldlM (fun n c => match digit c with
    | some d => if d < base then some (n * base + d) else none
    | none => none) 0

/-- Decimal, or hexadecimal with 0x. -/
def number : List Char → Option Nat
  | '0' :: 'x' :: chars => digits 16 chars
  | chars => digits 10 chars

/-- A number of at most `w` bits. -/
def field (w : Nat) (n : Nat) : Option (BitVec w) := if n < 2 ^ w then some (BitVec.ofNat w n) else none

inductive Operand where
  | num (n : Nat)
  | bytes (bs : List Byte)
  | text (bs : List Byte)
  | name (chars : List Char)
  deriving DecidableEq, Repr

/-- Where in the operands of a line the reader is. -/
inductive Reading where
  /-- Before the first operand: the line may end. -/
  | first
  /-- After a comma. -/
  | operand
  /-- After an operand: the line may end. -/
  | separator
  /-- After an open bracket. -/
  | listFirst
  /-- After a comma in a list of bytes, read so far newest first. -/
  | listItem (bs : List Byte)
  /-- After a byte in a list. -/
  | listSeparator (bs : List Byte)
  deriving DecidableEq, Repr

def readOperand (t : Token) (ops : List Operand) : Option (Reading × List Operand) :=
  match t with
  | .word chars =>
    match number chars with
    | some n => some (.separator, .num n :: ops)
    | none => some (.separator, .name chars :: ops)
  | .text chars => (chars.mapM (fun c => field 8 c.toNat)).map (fun bs => (.separator, .text bs :: ops))
  | .openList => some (.listFirst, ops)
  | .comma => none
  | .closeList => none

def readItem (t : Token) (bs : List Byte) (ops : List Operand) : Option (Reading × List Operand) :=
  match t with
  | .word chars => ((number chars).bind (field 8)).map (fun b => (.listSeparator (b :: bs), ops))
  | .text _ => none
  | .openList => none
  | .comma => none
  | .closeList => none

/-- One token; the operands read so far are newest first. -/
def Reading.next (st : Reading × List Operand) (t : Token) : Option (Reading × List Operand) :=
  match st.1 with
  | .first => readOperand t st.2
  | .operand => readOperand t st.2
  | .separator => if t = .comma then some (.operand, st.2) else none
  | .listFirst => if t = .closeList then some (.separator, .bytes [] :: st.2) else readItem t [] st.2
  | .listItem bs => readItem t bs st.2
  | .listSeparator bs =>
    if t = .comma then some (.listItem bs, st.2)
    else if t = .closeList then some (.separator, .bytes bs.reverse :: st.2)
    else none

/-- The operands of a line. -/
def operands (ts : List Token) : Option (List Operand) :=
  match ts.foldlM Reading.next (Reading.first, []) with
  | some (.first, ops) => some ops.reverse
  | some (.separator, ops) => some ops.reverse
  | _ => none

/-- The burst of RESPOND_WITH_IDENTITY, built from a name of at most 29 bytes; a longer name is rejected here, before
any word is produced (R82). -/
def assembleIdentity (ascii : Bool) (name : List Byte) (maxSize : Nat) : Option Instr :=
  ((field 16 maxSize).bind (dataIdRecord name)).map (Instr.respondWithIdentity ascii)

/-- The forms of R82 that have operands. -/
def assembleOperands (mnemonic : String) (ops : List Operand) : Option Instr :=
  match mnemonic, ops with
  | "CHECKSUM", [.name cs] =>
    if cs = ['s', 't', 'o', 'r', 'e'] then some (.checksum true)
    else if cs = ['n', 'o', 's', 't', 'o', 'r', 'e'] then some (.checksum false)
    else none
  | "CONSUME_BYTE", [.num b] => (field 8 b).map .consumeByte
  | "FRAME_BYTE", [.num i] => (field 24 i).map .frameByte
  | "SET_PAYLOAD", [.bytes bs] => if bs.length < 65536 then some (.setPayload bs) else none
  | "RESPOND_WITH_DATA", [.num r, .bytes bs] =>
    if bs.length < 65536 then (field 8 r).map (fun r => .respondWithData r bs) else none
  | "RESPOND_WITH_ERROR", [.num r, .num c] => (field 8 r).bind (fun r => (field 8 c).map (.respondWithError r))
  | "RESPOND_WITH_IDENTITY", [.name cs, .text name, .num n] =>
    if cs = ['a', 's', 'c', 'i', 'i'] then assembleIdentity true name n
    else if cs = ['r', 'a', 'w'] then assembleIdentity false name n
    else none
  | "SET_REQUEST", [.num v] => (field 8 v).map .setRequest
  | "SET_RESPONSE", [.num v] => (field 8 v).map .setResponse
  | "GET_DATA_BYTE", [.num i] => (field 16 i).map .getDataByte
  | _, _ => none

/-- The forms of R82 that are an opcode only. -/
def assembleBare (mnemonic : String) : Option Instr :=
  match mnemonic with
  | "VALIDATE" => some .validate
  | "NEXT_BYTE" => some .nextByte
  | "RESET_CURSOR" => some .resetCursor
  | "FRAME_LENGTH" => some .frameLength
  | "PACK" => some .pack
  | "DATAID_DECODE" => some .dataidDecode
  | "GET_HEADER" => some .getHeader
  | "GET_CHECKSUM" => some .getChecksum
  | "GET_REQUEST" => some .getRequest
  | "GET_RESPONSE" => some .getResponse
  | "GET_DATA_LENGTH" => some .getDataLength
  | "GET_STATUS" => some .getStatus
  | "GET_CAPACITY" => some .getCapacity
  | "RESET_LAZY" => some .resetLazy
  | "RESET_FULL" => some .resetFull
  | _ => none

/-- One line: `some []` for an empty or comment line, `none` for a line that is no command of R82. -/
def assembleLine (line : List Char) : Option (List Instr) :=
  match tokens line with
  | some [] => some []
  | some (.word mnemonic :: ts) =>
    match operands ts with
    | some [] => (assembleBare (String.ofList mnemonic)).map (fun i => [i])
    | some ops => (assembleOperands (String.ofList mnemonic) ops).map (fun i => [i])
    | none => none
  | _ => none

/-- A program: its lines, assembled in order. -/
def assembleProgram (lines : List (List Char)) : Option (List Instr) := (lines.mapM assembleLine).map List.flatten

end Sys2Proof.Machine
end

