-- ==== Sys2Proof/Tests/Slice0.lean ====
section
/-! SUPPORT. Tests. Expected values are those of spec 95_test_vectors.md (each docstring names the row), or are computed by hand
from the rule named. Every statement with hypotheses has its witness here, named test_witness_<statement>. -/

open Sys2Proof Sys2Proof.Machine

namespace Sys2Proof.Tests

/-- A new engine of a capacity, under CURSOR_RULES. -/
def engine (capacity : Half) : State := State.init { capacity := capacity, postTerminalMode := .cursorRules }

/-- A new engine of a capacity, with POST_TERMINAL_MODE = FAULT. -/
def faultEngine (capacity : Half) : State := State.init { capacity := capacity, postTerminalMode := .fault }

/-- The state an outcome holds; `s` for a fault or a refusal. -/
def landing (s : State) : Host.Outcome State Fault Refusal → State
  | .next t => t
  | .fault _ => s
  | .refused _ => s

/-- The state after a list of commands. -/
def go (is : List Instr) (s : State) : State := landing s (run is s)

/-- The newest result. -/
def last (s : State) : Option Result := s.results.head?

/-- The words R0 and R1 of the newest result. -/
def words (s : State) : Option (Word × Word) := s.results.head?.map (fun res => (res.r0, res.r1))

/-- `bytes` through CONSUME_BYTE. -/
def feed (bytes : List Byte) (s : State) : State := go (bytes.map .consumeByte) s

/-- F1 and F3 of 95_test_vectors.md section 3. -/
def f1 : List Byte := [0x55, 0x55, 0x01, 0xFC, 0x01, 0x00, 0x00, 0x00]
def f3 : List Byte := [0x55, 0x55, 0xC9, 0x1B, 0x10, 0x00, 0x03, 0x00, 0xDE, 0xAD, 0xBE]

/-- The state after row C10: CAPACITY 2, a received LENGTH of 3. -/
def c10 : State := feed f3 (engine 2)

/-- The W2 packet, packed, in an engine of capacity 4. -/
def w2 : State := go [.setRequest 0x01, .pack] (engine 4)

/-- The record of "flem", 108 (row I1). -/
def flem : List Byte := [0x66, 0x6C, 0x65, 0x6D] ++ List.replicate 26 0x00 ++ [0x6C, 0x00]

/-- A record with byte 29 = 0x41 (row I4). -/
def longName : List Byte := List.replicate 29 0x61 ++ [0x41, 0x6C, 0x00]

/-! ## WellFormed: the ill-formed terms it refuses -/

theorem test_setPayload_burst_too_long : (Instr.setPayload (List.replicate 65536 0x00)).wellFormed = false := by
  rw [Instr.wellFormed, List.length_replicate]; decide

theorem test_setPayload_longest_burst : (Instr.setPayload (List.replicate 65535 0x00)).wellFormed = true := by
  rw [Instr.wellFormed, List.length_replicate]; decide

theorem test_respondWithData_burst_too_long :
    (Instr.respondWithData 0x10 (List.replicate 65536 0x00)).wellFormed = false := by
  rw [Instr.wellFormed, List.length_replicate]; decide

theorem test_identity_record_too_short :
    (Instr.respondWithIdentity true (List.replicate 31 0x00)).wellFormed = false := by decide

theorem test_identity_record_too_long :
    (Instr.respondWithIdentity true (List.replicate 33 0x00)).wellFormed = false := by decide

/-! ## Decode: the word of every row, written out field by field from 30_encoding.md R74 (OP, A, B) -/

theorem test_decode_checksum :
    decode (wordBytes (0b00000001#8 ++ 0b00000001#8 ++ 0b0000000000000000#16)) = .command (.checksum true) [] := by decide
theorem test_decode_validate :
    decode (wordBytes (0b00000010#8 ++ 0b00000000#8 ++ 0b0000000000000000#16)) = .command .validate [] := by decide
theorem test_decode_consumeByte :
    decode (wordBytes (0b00010000#8 ++ 0b11001001#8 ++ 0b0000000000000000#16)) = .command (.consumeByte 0xC9) [] := by decide
theorem test_decode_nextByte :
    decode (wordBytes (0b00100000#8 ++ 0b00000000#8 ++ 0b0000000000000000#16)) = .command .nextByte [] := by decide
theorem test_decode_resetCursor :
    decode (wordBytes (0b00100001#8 ++ 0b00000000#8 ++ 0b0000000000000000#16)) = .command .resetCursor [] := by decide
theorem test_decode_frameByte :
    decode (wordBytes (0b00100010#8 ++ 0b00000001#8 ++ 0b0000000000001010#16)) = .command (.frameByte 65546) [] := by decide
theorem test_decode_frameLength :
    decode (wordBytes (0b00100011#8 ++ 0b00000000#8 ++ 0b0000000000000000#16)) = .command .frameLength [] := by decide
theorem test_decode_pack :
    decode (wordBytes (0b00110000#8 ++ 0b00000000#8 ++ 0b0000000000000000#16)) = .command .pack [] := by decide
theorem test_decode_setPayload :
    decode (wordBytes (0b00110001#8 ++ 0b00000000#8 ++ 0b0000000000000010#16) ++ [0x07, 0x08, 0x99]) =
      .command (.setPayload [0x07, 0x08]) [0x99] := by decide
theorem test_decode_respondWithData :
    decode (wordBytes (0b00110010#8 ++ 0b00010000#8 ++ 0b0000000000000011#16) ++ [0xDE, 0xAD, 0xBE]) =
      .command (.respondWithData 0x10 [0xDE, 0xAD, 0xBE]) [] := by decide
theorem test_decode_respondWithError :
    decode (wordBytes (0b00110011#8 ++ 0b00010000#8 ++ 0b0000000011111110#16)) =
      .command (.respondWithError 0x10 0xFE) [] := by decide
theorem test_decode_respondWithIdentity :
    decode (wordBytes (0b01000000#8 ++ 0b00000001#8 ++ 0b0000000000100000#16) ++ flem) =
      .command (.respondWithIdentity true flem) [] := by decide
theorem test_decode_respondWithIdentity_raw :
    decode (wordBytes (0b01000000#8 ++ 0b00000000#8 ++ 0b0000000000100000#16) ++ flem) =
      .command (.respondWithIdentity false flem) [] := by decide
theorem test_decode_dataidDecode :
    decode (wordBytes (0b01000001#8 ++ 0b00000000#8 ++ 0b0000000000000000#16)) = .command .dataidDecode [] := by decide
theorem test_decode_setRequest :
    decode (wordBytes (0b01010000#8 ++ 0b00001111#8 ++ 0b0000000000000000#16)) = .command (.setRequest 0x0F) [] := by decide
theorem test_decode_setResponse :
    decode (wordBytes (0b01010001#8 ++ 0b11111110#8 ++ 0b0000000000000000#16)) = .command (.setResponse 0xFE) [] := by decide
theorem test_decode_getHeader :
    decode (wordBytes (0b01010010#8 ++ 0b00000000#8 ++ 0b0000000000000000#16)) = .command .getHeader [] := by decide
theorem test_decode_getChecksum :
    decode (wordBytes (0b01010011#8 ++ 0b00000000#8 ++ 0b0000000000000000#16)) = .command .getChecksum [] := by decide
theorem test_decode_getRequest :
    decode (wordBytes (0b01010100#8 ++ 0b00000000#8 ++ 0b0000000000000000#16)) = .command .getRequest [] := by decide
theorem test_decode_getResponse :
    decode (wordBytes (0b01010101#8 ++ 0b00000000#8 ++ 0b0000000000000000#16)) = .command .getResponse [] := by decide
theorem test_decode_getDataLength :
    decode (wordBytes (0b01010110#8 ++ 0b00000000#8 ++ 0b0000000000000000#16)) = .command .getDataLength [] := by decide
theorem test_decode_getDataByte :
    decode (wordBytes (0b01010111#8 ++ 0b00000000#8 ++ 0b1000000000000001#16)) = .command (.getDataByte 0x8001) [] := by
  decide
theorem test_decode_getStatus :
    decode (wordBytes (0b01011000#8 ++ 0b00000000#8 ++ 0b0000000000000000#16)) = .command .getStatus [] := by decide
theorem test_decode_getCapacity :
    decode (wordBytes (0b01011001#8 ++ 0b00000000#8 ++ 0b0000000000000000#16)) = .command .getCapacity [] := by decide
theorem test_decode_resetLazy :
    decode (wordBytes (0b01011110#8 ++ 0b00000000#8 ++ 0b0000000000000000#16)) = .command .resetLazy [] := by decide
theorem test_decode_resetFull :
    decode (wordBytes (0b01011111#8 ++ 0b00000000#8 ++ 0b0000000000000000#16)) = .command .resetFull [] := by decide

/-- The word's bytes in stream order (log 1). -/
theorem test_stream_is_least_significant_byte_first : decode [0x00, 0x00, 0x55, 0x10] = .command (.consumeByte 0x55) [] := by
  decide

/-- Rows Z1 to Z8: the illegal words, by the reason R78 gives. -/
theorem test_illegal_words :
    [0x00000000, 0x60000000, 0xFF000000, 0x52010000, 0x10550001, 0x01020000, 0x33050100, 0x40010010].map decodeWord =
      [.error .unknownOpcode, .error .unknownOpcode, .error .unknownOpcode, .error .nonZeroField, .error .nonZeroField,
       .error .nonZeroField, .error .nonZeroField, .error .badIdentityLength] := by decide

/-- 43_packing_and_response.md R172, row P5: the burst is not there in full. -/
theorem test_incomplete_burst : decode (wordBytes 0x31000002 ++ [0x07]) = .incomplete := by decide

/-- opcode_table.json gives RESPOND_WITH_IDENTITY 32 bits; the record above them is zeros. -/
theorem test_decodeTableWord : decodeTableWord 32 0x40010020 = some (.respondWithIdentity true (List.replicate 32 0x00)) := by
  decide

/-- The first command after reset: row W2's SET_REQUEST 0x01. -/
theorem test_withFetchWord_runs_after_reset :
    landing State.reset (step (State.reset.withFetchWord 32 0x50010000)) =
      { State.reset with
        regs := { State.reset.regs with request := 0x01 }
        results := [.status .ok 0 none] } := by decide +kernel

/-! ## The CRC -/

/-- Rows X1 to X10. -/
theorem test_crc_vectors :
    [[], [0x00], [0x00, 0x00, 0x00, 0x00], [0x01, 0x00, 0x00, 0x00], [0xFF], [0x0F, 0x00, 0x6C, 0x00],
      [0x10, 0x00, 0x03, 0x00, 0xDE, 0xAD, 0xBE], [0x05, 0xFD, 0x00, 0x00], [0x22, 0x00, 0x00, 0x00],
      [0x31, 0x32, 0x33, 0x34, 0x35, 0x36, 0x37, 0x38, 0x39]].map crc16 =
    [0x0000, 0x0000, 0x0000, 0xFC01, 0x4040, 0x142E, 0x1BC9, 0x3C91, 0x780A, 0xBB3D] := by decide +kernel

/-- Row W1: the checksum of the source's 108-byte payload; its window is 0F 00 6C 00 and the bytes 00 to 6B. -/
theorem test_crc_w1 :
    crc16 ([0x0F, 0x00, 0x6C, 0x00] ++ (List.range 27).map (BitVec.ofNat 8) ++
      (List.range' 27 27).map (BitVec.ofNat 8) ++ (List.range' 54 27).map (BitVec.ofNat 8) ++
      (List.range' 81 27).map (BitVec.ofNat 8)) = 50848 := by
  rw [crc16, List.foldl_append, List.foldl_append, List.foldl_append, List.foldl_append,
    show [0x0F, 0x00, 0x6C, 0x00].foldl crcUpdate 0 = 0x142e from by decide +kernel,
    show ((List.range 27).map (BitVec.ofNat 8)).foldl crcUpdate 0x142e = 0x1760 from by decide +kernel,
    show ((List.range' 27 27).map (BitVec.ofNat 8)).foldl crcUpdate 0x1760 = 0x34db from by decide +kernel,
    show ((List.range' 54 27).map (BitVec.ofNat 8)).foldl crcUpdate 0x34db = 0x903a from by decide +kernel]
  decide +kernel

/-! ## One or two tests per command -/

/-- Row S2. -/
theorem test_checksum_nostore :
    let t := go [.setRequest 0x01, .checksum false] (engine 4)
    last t = some (.status .ok 0xFC01 none) ∧ t.regs.checksum = 0 := by decide +kernel
/-- Row S3. -/
theorem test_checksum_store :
    let t := go [.setRequest 0x01, .checksum true] (engine 4)
    last t = some (.status .ok 0xFC01 none) ∧ t.regs.checksum = 0xFC01 ∧ t.regs.header = 0 := by decide +kernel
/-- Row S5. -/
theorem test_validate_mismatch :
    let t := go [.setResponse 0xFE, .validate] w2
    last t = some (.status .checksumError 0 none) ∧ t.regs.status = .checksumError ∧ t.regs.checksum = 0xFC01 := by decide +kernel
/-- Row S7. -/
theorem test_validate_faults : words (go [.validate] c10) = some (0x80030000, 0) := by decide +kernel
/-- Row C2. -/
theorem test_consumeByte_frame :
    (feed f3 (engine 4)).regs =
      { header := 0x5555, checksum := 0x1BC9, request := 0x10, response := 0x00, length := 3,
        data := [(0, 0xDE), (1, 0xAD), (2, 0xBE)], cursor := 11, dataCursor := 3, status := .packetReceived } := by decide +kernel
/-- Row C18. -/
theorem test_consumeByte_after_terminal_faults :
    words (feed (f1 ++ [0x55]) (faultEngine 108)) = some (0x80070000, 0) := by decide +kernel
/-- Row E1, its third byte. -/
theorem test_nextByte : last (go [.nextByte, .nextByte, .nextByte] w2) = some (.status .ok 0x01 none) := by decide +kernel
/-- Row E7: the fault does not advance the cursor. -/
theorem test_nextByte_faults :
    let t := go (.resetCursor :: List.replicate 11 .nextByte) c10
    words t = some (0x80030000, 0) ∧ t.regs.cursor = 10 := by decide +kernel
/-- Row R3. -/
theorem test_resetCursor_keeps_status :
    let t := go [.resetCursor] (feed [0x00] (faultEngine 4))
    t.regs.status = .headerNotFound ∧ last t = some (.status .ok 0 none) := by decide +kernel
/-- Row E3. -/
theorem test_frameByte : last (go [.frameByte 3] w2) = some (.status .ok 0xFC none) := by decide +kernel
/-- Row Z12, with LENGTH 65535. -/
theorem test_frameByte_out_of_range :
    words (go [.frameByte 65546] (feed [0x55, 0x55, 0x00, 0x00, 0x00, 0x00, 0xFF, 0xFF] (engine 4))) =
      some (0x80020000, 0) := by decide +kernel
/-- Row E8. -/
theorem test_frameLength : last (go [.frameLength] c10) = some (.status .ok 0x0B none) := by decide +kernel
/-- Row K10. -/
theorem test_pack_faults : words (go [.pack] c10) = some (0x80030000, 0) ∧ (go [.pack] c10).regs = c10.regs := by decide +kernel
/-- Row K5. -/
theorem test_setPayload_appends :
    let t := go [.setPayload [0x01], .setPayload [0x02, 0x03]] (engine 4)
    t.regs.length = 3 ∧ t.regs.data = [(0, 0x01), (1, 0x02), (2, 0x03)] := by decide +kernel
/-- Row K14: LENGTH = 65535 and one byte more do not wrap to 0. -/
theorem test_setPayload_does_not_wrap :
    let s : State := { engine 65535 with regs := { Regs.reset with length := 65535 } }
    last (go [.setPayload [0x01]] s) = some (.status .packetOverflow 0 none) ∧
      last (go [.frameLength] s) = some (.status .ok 0x10007 none) := by decide +kernel
/-- Row K6. -/
theorem test_respondWithData :
    let t := go [.respondWithData 0x10 [0xDE, 0xAD, 0xBE]] (engine 4)
    t.regs.checksum = 0x1BC9 ∧ t.regs.header = 0x5555 ∧ t.regs.length = 3 ∧ t.regs.response = 0x00 := by decide +kernel
/-- Row K7. -/
theorem test_respondWithData_overflow :
    let t := go [.respondWithData 0x10 [0x01, 0x02, 0x03, 0x04, 0x05]] (engine 4)
    words t = some (0x05000000, 0) ∧ t.regs = { Regs.reset with request := 0x10, response := 0xFF } := by decide +kernel
/-- Row K9. -/
theorem test_respondWithError :
    (go [.setPayload [0x07, 0x08], .respondWithError 0x05 0xFD] (engine 4)).regs =
      { Regs.reset with header := 0x5555, checksum := 0x3C91, request := 0x05, response := 0xFD,
                        data := [(0, 0x07), (1, 0x08)] } := by decide +kernel
/-- Row I1. -/
theorem test_respondWithIdentity :
    let t := go [.setRequest 0x01, .respondWithIdentity true flem] (engine 108)
    t.regs.checksum = 0xB59A ∧ t.regs.length = 32 ∧ t.regs.header = 0x5555 := by decide +kernel
/-- Row I5: Unsupported is tested before NameTooLong. -/
theorem test_respondWithIdentity_priority :
    words (go [.respondWithIdentity false longName] (engine 108)) = some (0x80040000, 0) := by decide +kernel
/-- Row I10: the first 32 payload bytes, not the record sent. -/
theorem test_dataidDecode :
    last (go [.setPayload [0x09], .respondWithIdentity true (0x78 :: List.replicate 29 0x00 ++ [0x01, 0x00]), .dataidDecode]
      (engine 40)) = some (.status .ok 0 (some ([0x09, 0x78] ++ List.replicate 29 0x00 ++ [0x01]))) := by decide +kernel
/-- Row Z14. -/
theorem test_dataidDecode_short : words (go [.dataidDecode] State.reset) = some (0x80060000, 0) := by decide +kernel
/-- Row F1. -/
theorem test_setRequest_getRequest :
    last (go [.setRequest 0x0F, .getRequest] (engine 4)) = some (.status .ok 0x0F none) := by decide +kernel
/-- Row F1. -/
theorem test_setResponse_getResponse :
    last (go [.setResponse 0xFE, .getResponse] (engine 4)) = some (.status .ok 0xFE none) := by decide +kernel
/-- Row F2. -/
theorem test_getHeader : last (go [.getHeader] w2) = some (.status .ok 0x5555 none) := by decide +kernel
/-- Row F2. -/
theorem test_getChecksum : last (go [.getChecksum] w2) = some (.status .ok 0xFC01 none) := by decide +kernel
/-- 45_fields_and_resets.md R216: a received length is returned even past CAPACITY. -/
theorem test_getDataLength : last (go [.getDataLength] c10) = some (.status .ok 3 none) := by decide +kernel
/-- Row P5: past LENGTH, after a lazy reset. -/
theorem test_getDataByte :
    last (go [.setPayload [0x07, 0x08], .resetLazy, .getDataByte 1] (engine 4)) = some (.status .ok 8 none) := by decide +kernel
/-- Row F4. -/
theorem test_getDataByte_out_of_range : words (go [.getDataByte 108] State.reset) = some (0x80020000, 0) := by decide +kernel
/-- Row F3. -/
theorem test_getStatus : words (go [.getStatus] (feed [0x55, 0x54] (engine 4))) = some (0x00000000, 4) := by decide +kernel
/-- Row F4. -/
theorem test_getCapacity : last (go [.getCapacity] (engine 108)) = some (.status .ok 0x6C none) := by decide +kernel
/-- Row R1. -/
theorem test_resetLazy :
    (go [.setPayload [0x07, 0x08], .setRequest 0x03, .pack, .resetLazy] (engine 4)).regs =
      { Regs.reset with data := [(0, 0x07), (1, 0x08)] } := by decide +kernel
/-- Row R2. -/
theorem test_resetFull : (go [.setPayload [0x07, 0x08], .pack, .resetFull] (engine 4)).regs = Regs.reset := by decide +kernel

/-! ## The assembler (30_encoding.md R82) -/

theorem test_assemble_respond :
    assembleLine "RESPOND_WITH_DATA 0x10, [0xDE, 173, 0xBE] ; reply".toList =
      some [.respondWithData 0x10 [0xDE, 0xAD, 0xBE]] := by decide +kernel
theorem test_assemble_identity : assembleIdentity true [0x66, 0x6C, 0x65, 0x6D] 108 = some (.respondWithIdentity true flem) := by
  decide +kernel
/-- A name of 30 bytes is rejected before any word is produced. -/
theorem test_assemble_rejects_long_name : assembleIdentity true (List.replicate 30 0x61) 108 = none := by decide +kernel

/-! ## Witnesses: states and operands that meet the hypotheses of each statement, one per clause, at boundary values -/

/-- An engine whose registers are `r`. -/
def withRegs (cfg : Config) (r : Regs) : State := { State.init cfg with regs := r }

/-- Capacity 2 and 0, and capacity 4 under FAULT. -/
def cfg2 : Config := { capacity := 2, postTerminalMode := .cursorRules }
def cfg0 : Config := { capacity := 0, postTerminalMode := .cursorRules }
def cfgFault : Config := { capacity := 4, postTerminalMode := .fault }

/-- A full, packed two-byte packet in capacity 2. -/
def full : State := go [.setPayload [0x07, 0x08], .pack] (withRegs cfg2 Regs.reset)

theorem test_witness_DecodeOfEncodeIsTheCommand :
    (Instr.setPayload []).wellFormed = true ∧ (Instr.respondWithIdentity true flem).wellFormed = true ∧
      Instr.pack.wellFormed = true := by decide

theorem test_witness_DecodedBytesAreTheEncoding :
    decode [0x01, 0x00, 0x00, 0x31, 0x07, 0x99] = .command (.setPayload [0x07]) [0x99] := by decide

theorem test_witness_IllegalWordFaultsAndConsumesNoBurst :
    ({ engine 4 with pending := wordBytes 0x40010010 ++ [0x55] } : State).pending = wordBytes 0x40010010 ++ [0x55] ∧
      Spec.illegalWord 0x40010010 = true ∧ Spec.illegalWord 0x40010020 = false := by decide

theorem test_witness_StepRunsTheDecodedCommand :
    decode (State.reset.withFetchWord 32 0x50010000).pending = .command (.setRequest 0x01) [] := by decide

theorem test_witness_StepWaitsForAWholeCommand :
    (Instr.setPayload [0x07, 0x08]).wellFormed = true ∧
      encode (.setPayload [0x07, 0x08]) = ({ engine 4 with pending := [0x02, 0x00, 0x00, 0x31, 0x07] } : State).pending ++ [0x08] ∧
      [(0x08 : Byte)] ≠ [] := by decide

theorem test_witness_StepsRunTheHostsProgram :
    ∀ i ∈ [Instr.setRequest 0x01, .setPayload [0x07], .pack], i.wellFormed = true := by decide

theorem test_witness_CreationStateIsZeroedAndEqualsResetFull :
    107 < Config.created.capacity.toNat ∧ exec .resetFull full = .next (landing full (exec .resetFull full)) :=
  ⟨by decide, rfl⟩

/-- For ResetLazyClearsAllButData and ResetFullClearsEverything: the last byte of the buffer. -/
theorem test_witness_Resets : (1 : Half).toNat < full.cfg.capacity.toNat := by decide +kernel

theorem test_witness_OneChangedByteChangesTheCrc : (0x00 : Byte) ≠ 0xFF := by decide

theorem test_full_is_packed : Spec.packed full := ⟨by decide +kernel, by decide +kernel, by decide +kernel⟩

theorem test_witness_ValidateReportsOneCorruptedByte :
    full.regs.data.wf ∧ Spec.packed full ∧ 1 < full.regs.length.toNat ∧ (0x09 : Byte) ≠ full.regs.data.read 1 ∧
      (0x01 : Byte) ≠ full.regs.request ∧ (0xFF : Byte) ≠ full.regs.response ∧ (0x0000 : Half) ≠ full.regs.checksum :=
  ⟨by decide +kernel, test_full_is_packed, by decide +kernel⟩

/-- LENGTH = CAPACITY, and LENGTH one past it; the checksum right and wrong. -/
theorem test_witness_Checksum_Validate_Pack :
    full.regs.length.toNat ≤ full.cfg.capacity.toNat ∧ full.regs.checksum = crc16 (Spec.window full.regs) ∧
      c10.cfg.capacity.toNat < c10.regs.length.toNat ∧
      (withRegs cfg2 { full.regs with checksum := 0 }).regs.checksum ≠
        crc16 (Spec.window (withRegs cfg2 { full.regs with checksum := 0 }).regs) := by decide +kernel

/-- Both ways of accepting a byte: CURSOR_RULES with a terminal STATUS, and FAULT with another. -/
theorem test_witness_accepts :
    Spec.accepts (withRegs cfg2 { Regs.reset with status := .headerNotFound }) ∧
      Spec.accepts (withRegs cfgFault { Regs.reset with status := .emissionFinished }) :=
  ⟨.inl rfl, .inr (by decide)⟩

theorem test_witness_SyncBytesAreStoredOrHeaderNotFound :
    Spec.accepts (withRegs cfg2 { Regs.reset with cursor := 1, header := 0x0055 }) ∧
      (1 : Word).toNat ≤ 1 ∧ (0x54 : Byte) ≠ 0x55 ∧ Regs.reset.cursor = 0 ∧
      ({ Regs.reset with cursor := 1, header := 0x0055 } : Regs).header &&& 0x00FF = 0x0055 :=
  ⟨.inl rfl, by decide⟩

theorem test_witness_ChecksumAndCodesAreStoredVerbatim :
    ∀ c ∈ [(2 : Word), 3, 4, 5],
      Spec.accepts (withRegs cfgFault { Regs.reset with cursor := c, status := .packetBuilding }) ∧
        (withRegs cfgFault { Regs.reset with cursor := c, status := .packetBuilding }).regs.cursor = c :=
  fun _ _ => ⟨.inr (show Status.packetBuilding ∈ [Status.ok, .packetBuilding, .emissionFinished] by decide), rfl⟩

/-- Cursor 6; cursor 7 with a length of 0, and with the largest. -/
theorem test_witness_LengthIsStoredAndEmptyFrameCompletes :
    Spec.accepts (withRegs cfg2 { Regs.reset with cursor := 7, length := 0x00FF }) ∧
      Spec.accepts (withRegs cfg2 { Regs.reset with cursor := 6 }) ∧
      (((0xFF : Byte).setWidth 16 <<< 8) ||| ((0x00FF : Half) &&& 0x00FF)) = (0xFFFF : Half) ∧ (0xFFFF : Half) ≠ 0 ∧
      (((0x00 : Byte).setWidth 16 <<< 8) ||| ((0x0000 : Half) &&& 0x00FF)) = (0 : Half) :=
  ⟨.inl rfl, .inl rfl, by decide⟩

/-- Two bytes declared, byte `d` of them awaited at cursor 9, in capacity 2. -/
def awaiting (d : Half) : State := withRegs cfg2 { Regs.reset with cursor := 9, dataCursor := d, length := 2 }

/-- The last byte of a full buffer, and a byte that is not the last. -/
theorem test_witness_PayloadByteIsStoredAndLastByteValidates :
    Spec.accepts (awaiting 0) ∧ Spec.accepts (awaiting 1) ∧
      (awaiting 0).regs.data.wf ∧ 8 ≤ (awaiting 0).regs.cursor.toNat ∧
      (awaiting 0).regs.cursor.toNat < 8 + (awaiting 0).cfg.capacity.toNat ∧
      (awaiting 0).regs.dataCursor.toNat < (awaiting 0).regs.length.toNat ∧
      (awaiting 0).regs.dataCursor.toNat < (awaiting 0).cfg.capacity.toNat ∧
      (awaiting 1).regs.data.wf ∧ 8 ≤ (awaiting 1).regs.cursor.toNat ∧
      (awaiting 1).regs.cursor.toNat < 8 + (awaiting 1).cfg.capacity.toNat ∧
      (awaiting 1).regs.dataCursor.toNat < (awaiting 1).regs.length.toNat ∧
      (awaiting 1).regs.dataCursor.toNat < (awaiting 1).cfg.capacity.toNat :=
  ⟨.inl rfl, .inl rfl, by decide +kernel⟩

/-- Each of the three causes alone: the cursor past the buffer, DATA_CURSOR at LENGTH, DATA_CURSOR at CAPACITY. -/
theorem test_witness_OverflowWritesOnlyStatus :
    Spec.accepts c10 ∧ 8 ≤ c10.regs.cursor.toNat ∧ 8 + c10.cfg.capacity.toNat ≤ c10.regs.cursor.toNat ∧
      (let s := withRegs cfg2 { Regs.reset with cursor := 8 }
       Spec.accepts s ∧ 8 ≤ s.regs.cursor.toNat ∧ s.regs.length.toNat ≤ s.regs.dataCursor.toNat) ∧
      (let s := withRegs cfg2 { Regs.reset with cursor := 9, dataCursor := 2, length := 3 }
       Spec.accepts s ∧ 8 ≤ s.regs.cursor.toNat ∧ s.cfg.capacity.toNat ≤ s.regs.dataCursor.toNat) :=
  ⟨.inl (by decide +kernel), by decide +kernel, by decide +kernel, ⟨.inl rfl, by decide⟩, ⟨.inl rfl, by decide⟩⟩

/-- The last byte of F1 in both modes, and the resets after it. -/
theorem test_witness_ByteAfterACompletedFrame :
    ∀ s ∈ [feed (f1.take 7) (engine 4), feed (f1.take 7) (faultEngine 4)],
      let t := landing s (exec (.consumeByte 0x00) s)
      exec (.consumeByte 0x00) s = .next t ∧ t.results.head? ≠ some (.fault .consumeAfterTerminal) ∧
        t.regs.status = .packetReceived ∧ exec .resetCursor t = .next (landing t (exec .resetCursor t)) ∧
        exec .resetLazy t = .next (landing t (exec .resetLazy t)) := by
  intro s hs
  rcases List.mem_cons.1 hs with rfl | h
  · exact ⟨rfl, by decide +kernel, by decide +kernel, rfl, rfl⟩
  · rw [List.mem_singleton.1 h]
    exact ⟨rfl, by decide +kernel, by decide +kernel, rfl, rfl⟩

/-- F3 filling the buffer of capacity 3. -/
theorem test_witness_CorrectFrameIsReceivedExactlyOnItsLastByte :
    (engine 3).regs.data.wf ∧ (engine 3).regs.cursor = 0 ∧
      (engine 3).regs.status ∈ [Status.ok, .packetBuilding, .emissionFinished] ∧
      [(0xDE : Byte), 0xAD, 0xBE].length = (3 : Half).toNat ∧ (3 : Half).toNat ≤ (engine 3).cfg.capacity.toNat ∧
      (0x1BC9 : Half) = crc16 ([0x10, 0x00, Spec.lo 3, Spec.hi 3] ++ [0xDE, 0xAD, 0xBE]) := by decide +kernel

theorem test_witness_ConsumeByteKeepsTheConstructionInvariant :
    let s := feed (f3.take 9) (engine 4)
    s.ConstructionInv ∧ exec (.consumeByte 0xAD) s = .next (landing s (exec (.consumeByte 0xAD) s)) :=
  ⟨⟨by decide +kernel, by decide +kernel, by decide +kernel, by decide +kernel⟩, rfl⟩

/-- The three ranges of the cursor, and of the index, meet at 8 + LENGTH and at 8 + CAPACITY. -/
theorem test_witness_NextByte_FrameByte :
    8 + full.regs.length.toNat ≤ (withRegs cfg2 { full.regs with cursor := 10 }).regs.cursor.toNat ∧
      (9 : Word).toNat < 8 + full.regs.length.toNat ∧ (9 : Word).toNat < 8 + full.cfg.capacity.toNat ∧
      c10.regs.cursor.toNat < 8 + c10.regs.length.toNat ∧ 8 + c10.cfg.capacity.toNat ≤ c10.regs.cursor.toNat ∧
      (10 : BitVec 24).toNat < 8 + c10.regs.length.toNat ∧ 8 + c10.cfg.capacity.toNat ≤ (10 : BitVec 24).toNat ∧
      8 + c10.regs.length.toNat ≤ (11 : BitVec 24).toNat := by decide +kernel

theorem test_witness_CursorViewAndBulkViewAgree :
    full.regs.cursor = 0 ∧ full.regs.length.toNat ≤ full.cfg.capacity.toNat ∧ 9 < 8 + full.regs.length.toNat := by
  decide +kernel

/-- A burst that just fits, and one byte too many: SET_PAYLOAD, RESPOND_WITH_DATA, HelpersEqualTheirSequences. -/
theorem test_witness_Appends :
    let s := withRegs cfg2 { Regs.reset with length := 1, data := [(0, 0x07)] }
    s.regs.data.wf ∧ [(0x08 : Byte)].length ≤ 65535 ∧ s.regs.length.toNat + [(0x08 : Byte)].length ≤ s.cfg.capacity.toNat ∧
      s.cfg.capacity.toNat < s.regs.length.toNat + [(0x08 : Byte), 0x09].length := by decide

theorem test_witness_OnlyListedCommandsUnpack :
    Spec.packed full ∧ Spec.mayUnpack .validate full = false ∧ Spec.mayUnpack (.setPayload []) full = false ∧
      Spec.mayUnpack (.respondWithData 0x10 []) full = false ∧
      exec .validate full = .next (landing full (exec .validate full)) :=
  ⟨test_full_is_packed, by decide +kernel, by decide +kernel, by decide +kernel, rfl⟩

/-- Also for the identity clause of HelpersEqualTheirSequences. The record just fits in 33 bytes after one byte, and not in 32; a name of 30 bytes. -/
theorem test_witness_RespondWithIdentity :
    (engine 33).regs.data.wf ∧ flem.length = 32 ∧ longName.getD 29 0 ≠ 0 ∧ longName.length = 32 ∧ flem.getD 29 0 = 0 ∧
      (let r : Regs := { Regs.reset with length := 1 }
       (engine 33).cfg.capacity.toNat = r.length.toNat + 32 ∧ (engine 32).cfg.capacity.toNat < r.length.toNat + 32) := by
  decide

theorem test_witness_DataidDecode :
    (engine 32).regs.length.toNat < 32 ∧
      (let s := withRegs cfg2 { Regs.reset with length := 32 }
       32 ≤ s.regs.length.toNat ∧ s.cfg.capacity.toNat < 32) ∧
      32 ≤ ({ Regs.reset with length := 32 } : Regs).length.toNat ∧ 32 ≤ (engine 32).cfg.capacity.toNat := by decide

theorem test_witness_RecordHoldsNameAndMaxSize :
    29 < (List.replicate 30 (0x61 : Byte)).length ∧ (List.replicate 29 (0x61 : Byte)).length ≤ 29 ∧ 29 < 30 := by decide

/-- For both identity round trips. -/
theorem test_witness_IdentityReplyDecodesToItsRecord :
    (engine 32).regs.data.wf ∧ (engine 32).regs.length = 0 ∧ 32 ≤ (engine 32).cfg.capacity.toNat ∧ flem.length = 32 ∧
      flem.getD 29 0 = 0 := by decide

theorem test_witness_SettersWriteTheirCode :
    Spec.packed full ∧ exec (.setRequest 0x01) full = .next (landing full (exec (.setRequest 0x01) full)) :=
  ⟨test_full_is_packed, rfl⟩

theorem test_witness_GetDataByteReadsTheWholeBuffer :
    (1 : Half).toNat < cfg2.capacity.toNat ∧ cfg2.capacity.toNat ≤ (2 : Half).toNat ∧
      cfg0.capacity.toNat ≤ (0 : Half).toNat := by decide

theorem test_witness_FaultsExactlyForTheListedCauses :
    Spec.faultCause .pack c10 = some .lengthExceedsCapacity ∧ Spec.faultCause .pack full = none ∧
      Spec.faultCause (.respondWithIdentity false longName) full = some .unsupported ∧
      Spec.faultCause (.frameByte 11) c10 = some .indexOutOfRange ∧
      Spec.faultCause (.consumeByte 0x55) (feed [0x00] (faultEngine 4)) = some .consumeAfterTerminal := by decide +kernel

theorem test_witness_OnlyFiveCommandsWriteStatus :
    Spec.writesStatus .pack = false ∧ exec .pack full = .next (landing full (exec .pack full)) ∧
      full.cfg.postTerminalMode = .cursorRules := ⟨by decide, rfl, by decide +kernel⟩

theorem test_witness_RegistersAreWrittenOnlyByTheirCommands :
    exec .getHeader full = .next (landing full (exec .getHeader full)) ∧ Spec.writesHeader .getHeader = false ∧
      Spec.writesChecksum (.checksum false) = false ∧ Spec.writesRequest .pack = false ∧
      Spec.writesResponse .pack = false ∧ Spec.writesLength .pack = false ∧
      Spec.writesData (.respondWithError 0x10 0xFE) = false ∧ Spec.writesCursor .pack = false ∧
      Spec.writesDataCursor .nextByte = false := ⟨rfl, by decide⟩

theorem test_witness_LengthStaysWithinCapacity :
    full.regs.length.toNat ≤ full.cfg.capacity.toNat ∧ full.regs.cursor.toNat ≠ 6 ∧ full.regs.cursor.toNat ≠ 7 ∧
      exec (.consumeByte 0x55) full = .next (landing full (exec (.consumeByte 0x55) full)) :=
  ⟨by decide +kernel, by decide +kernel, by decide +kernel, rfl⟩

theorem test_witness_EveryStepKeepsTheInvariant :
    let s := { full with pending := wordBytes 0x10550000 }
    s.Inv ∧ step s = .next (landing s (step s)) :=
  ⟨⟨by decide +kernel, by decide +kernel, by decide +kernel, by decide +kernel, by decide +kernel, by
      rintro res hres record hr
      have h : ∀ res ∈ full.results, res.record? = none := by decide +kernel
      rw [h res hres] at hr
      cases hr⟩, rfl⟩

theorem test_witness_StepKeepsConfigurationAndRecord : (go [.pack] c10).faultFree = false := by decide +kernel

theorem test_witness_SideEffectFreeCommandsRepeat :
    Spec.sideEffectFree (.checksum false) = true ∧ Spec.sideEffectFree (.frameByte 8) = true := by decide

theorem test_witness_CommandsDependOnlyOnRegistersAndParameters :
    let s' : State := { full with results := [], pending := [0x55] }
    s'.cfg = full.cfg ∧ s'.regs = full.regs ∧ exec .nextByte full = .next (landing full (exec .nextByte full)) :=
  ⟨rfl, rfl, rfl⟩

theorem test_witness_ResultWordsCarryTheirFields :
    let s := withRegs (engine 32).cfg { Regs.reset with length := 32 }
    let res : Result := .status .ok 0 (some (List.replicate 32 0x00))
    exec .dataidDecode s = .next { s with results := [res] } ∧ res.record? = some (List.replicate 32 0x00) :=
  ⟨rfl, rfl⟩

/-- Sender and receiver both just large enough. -/
theorem test_witness_PackedFrameRoundTripsOverTheWire :
    full.regs.length.toNat ≤ full.cfg.capacity.toNat ∧ full.regs.length.toNat ≤ cfg2.capacity.toNat := by decide +kernel

end Sys2Proof.Tests
end

section
/-!
The statement of the scope rules (00_scope.md).
-/
namespace Sys2Proof.Proofs
open Sys2Proof.Machine

/-- Settles O54, by cases on the seven statuses: four satisfy both sides (00_scope.md R14), three neither. -/
theorem terminalStatusesAreTheFour : Obligations.TerminalStatusesAreTheFour := by
  intro st
  cases st <;> simp [Status.terminal]

end Sys2Proof.Proofs
end

section
/-!
STATUS and the commands that write it (10_state.md R29).
-/
namespace Sys2Proof.Proofs
open Sys2Proof.Machine

/-- A command's outcome `o` from `s` leaves the register `f` as it was. -/
def Keeps {α : Type} (f : Regs → α) (s : State) (o : Host.Outcome State Fault Refusal) : Prop :=
  ∀ t, o = .next t → f t.regs = f s.regs

section
variable {α : Type} {f : Regs → α} {s : State} {r : Regs}

theorem keeps_reply (h : f r = f s.regs) (st : Status) (v : Word) : Keeps f s (s.reply r st v) := by
  intro t ht
  rw [reply_eq] at ht
  cases ht
  exact h

theorem keeps_replyRecord (h : f r = f s.regs) (st : Status) (v : Word) (record : List Byte) :
    Keeps f s (s.replyRecord r st v record) := by
  intro t ht
  rw [replyRecord_eq] at ht
  cases ht
  exact h

/-- A command fault keeps every register (60_exceptions.md R245). -/
theorem keeps_raise (c : FaultCode) : Keeps f s (s.raise c) := by
  intro t ht
  rw [raise_eq] at ht
  cases ht
  rfl

theorem keeps_get (v : Word) : Keeps f s (s.get v) := keeps_reply rfl .ok v

end

/-! The commands outside R29's list that have more than one way to end. -/

theorem append_status {cfg : Config} {r r' : Regs} {bytes : List Byte} (h : r.append cfg bytes = some r') :
    r'.status = r.status := by
  obtain ⟨-, hn⟩ | ⟨-, hs⟩ := append_cases cfg r bytes
  · rw [hn] at h
    cases h
  · rw [hs] at h
    cases h
    rfl

theorem execChecksum_keeps_status (store : Bool) (s : State) : Keeps Regs.status s (execChecksum store s) := by
  unfold execChecksum
  split
  · exact keeps_raise _
  · exact keeps_reply (by cases store <;> rfl) _ _

theorem execPack_keeps_status (s : State) : Keeps Regs.status s (execPack s) := by
  unfold execPack
  split
  · exact keeps_raise _
  · exact keeps_reply (by rfl) _ _

theorem execSetPayload_keeps_status (bytes : List Byte) (s : State) :
    Keeps Regs.status s (execSetPayload bytes s) := by
  unfold execSetPayload
  split
  · exact keeps_reply (by rfl) _ _
  next r happend => exact keeps_reply (append_status happend) _ _

theorem execRespondWithData_keeps_status (request : Byte) (bytes : List Byte) (s : State) :
    Keeps Regs.status s (execRespondWithData request bytes s) := by
  unfold execRespondWithData
  split
  · exact keeps_reply (by rfl) _ _
  next r happend => exact keeps_reply (by simpa using append_status happend) _ _

theorem execRespondWithIdentity_keeps_status (ascii : Bool) (record : List Byte) (s : State) :
    Keeps Regs.status s (execRespondWithIdentity ascii record s) := by
  unfold execRespondWithIdentity
  split
  · exact keeps_raise _
  split
  · exact keeps_raise _
  split
  · exact keeps_reply (by rfl) _ _
  next r happend => exact keeps_reply (by simpa using append_status happend) _ _

theorem execDataidDecode_keeps_status (s : State) : Keeps Regs.status s (execDataidDecode s) := by
  unfold execDataidDecode
  split
  · exact keeps_raise _
  split
  · exact keeps_raise _
  · exact keeps_replyRecord (by rfl) _ _ _

theorem execFrameByte_keeps_status (index : BitVec 24) (s : State) :
    Keeps Regs.status s (execFrameByte index s) := by
  unfold execFrameByte
  split
  · exact keeps_raise _
  split
  · exact keeps_raise _
  · exact keeps_reply (by rfl) _ _

theorem execGetDataByte_keeps_status (index : Half) (s : State) :
    Keeps Regs.status s (execGetDataByte index s) := by
  unfold execGetDataByte
  split
  · exact keeps_raise _
  · exact keeps_get _

/-- Every command outside R29's list keeps STATUS. -/
theorem exec_keeps_status {i : Instr} (h : Spec.writesStatus i = false) (s : State) :
    Keeps Regs.status s (exec i s) := by
  cases i with
  | validate | consumeByte | nextByte | resetLazy | resetFull => cases h
  | checksum store => exact execChecksum_keeps_status store s
  | frameByte index => exact execFrameByte_keeps_status index s
  | pack => exact execPack_keeps_status s
  | setPayload bytes => exact execSetPayload_keeps_status bytes s
  | respondWithData request bytes => exact execRespondWithData_keeps_status request bytes s
  | respondWithIdentity ascii record => exact execRespondWithIdentity_keeps_status ascii record s
  | dataidDecode => exact execDataidDecode_keeps_status s
  | getDataByte index => exact execGetDataByte_keeps_status index s
  | resetCursor | frameLength | respondWithError | setRequest | setResponse => exact keeps_reply (by rfl) _ _
  | getHeader | getChecksum | getRequest | getResponse | getDataLength | getStatus | getCapacity => exact keeps_get _

/-! Construction writes STATUS at every byte and never reads it. -/

/-- Each arm of the state machine overwrites STATUS, and no arm or its condition reads it: both sides unfold to one
term. -/
theorem consume_ignores_status (cfg : Config) (r : Regs) (b : Byte) (st : Status) :
    Regs.consume cfg { r with status := st } b = r.consume cfg b := rfl

/-- A result replaces all registers, so those of the state it is given from do not matter. -/
theorem reply_ignores_regs (s : State) (r₀ r : Regs) (st : Status) (v : Word) :
    State.reply { s with regs := r₀ } r st v = s.reply r st v := rfl

/-- Under CURSOR_RULES a byte is never refused (41_construction.md R131). -/
theorem execConsumeByte_of_cursorRules {s : State} (h : s.cfg.postTerminalMode = .cursorRules) (b : Byte) :
    execConsumeByte b s = s.reply (s.regs.consume s.cfg b) (s.regs.consume s.cfg b).status 0 :=
  if_neg fun hf => by simp [h] at hf

theorem execConsumeByte_ignores_status {s : State} (h : s.cfg.postTerminalMode = .cursorRules) (b : Byte)
    (st : Status) : execConsumeByte b { s with regs := { s.regs with status := st } } = execConsumeByte b s := by
  have hst := execConsumeByte_of_cursorRules (s := { s with regs := { s.regs with status := st } }) h b
  rw [hst, execConsumeByte_of_cursorRules h, consume_ignores_status, reply_ignores_regs]

/-- Settles O45: every command outside R29's list keeps STATUS (`exec_keeps_status`), and CONSUME_BYTE under
CURSOR_RULES does not read it (`execConsumeByte_ignores_status`). -/
theorem onlyFiveCommandsWriteStatus : Obligations.OnlyFiveCommandsWriteStatus := by
  refine ⟨fun i s t hi ht => exec_keeps_status hi s t ht, fun s => ⟨⟨_, rfl, ?_⟩, ⟨_, rfl, ?_⟩, rfl⟩, ?_⟩
  · exact Regs.clearAllButData_status s.regs
  · exact Regs.clearAllButData_status s.regs
  · exact fun s b st hmode => execConsumeByte_ignores_status hmode b st

end Sys2Proof.Proofs
end

section
/-!
Construction: the eight bytes before the payload, one lemma per cursor (41_construction.md R122 to R125).
-/
namespace Sys2Proof.Proofs
open Sys2Proof.Machine

theorem terminal_eq_false_of_mem {st : Status} (h : st ∈ [.ok, .packetBuilding, .emissionFinished]) :
    st.terminal = false := by
  cases st with
  | ok | packetBuilding | emissionFinished => rfl
  | packetReceived | checksumError | headerNotFound | packetOverflow => simp at h

/-- Where the cursor rules apply, CONSUME_BYTE leaves what the state machine makes of the registers and returns the
status written (41_construction.md R120, R131). -/
theorem exec_consumeByte_of_accepts {s : State} {b : Byte} {r : Regs} (hs : Spec.accepts s)
    (hr : s.regs.consume s.cfg b = r) : exec (.consumeByte b) s = .next (Spec.after s r r.status 0) := by
  subst hr
  rcases hs with hrules | hstatus
  · exact execConsumeByte_of_cursorRules hrules b
  · exact if_neg fun hf => by simp [terminal_eq_false_of_mem hstatus] at hf

/-- The high byte of a field received, as a shift and a mask. -/
theorem setHigh_eq_or (h : Half) (b : Byte) : setHigh h b = (b.setWidth 16 <<< 8) ||| (h &&& 0x00FF) := by
  have hmask : ∀ i < 16, BitVec.getLsbD (0x00FF : Half) i = decide (i < 8) := by decide
  apply BitVec.eq_of_getLsbD_eq
  intro i hi
  rw [setHigh, getLsbD_half, BitVec.getLsbD_or, BitVec.getLsbD_and, hmask i hi]
  by_cases hlow : i < 8
  · simp [lowByte, hlow]
  · simp [hlow, hi]

section
variable {cfg : Config} {r : Regs} {b : Byte}

theorem consume_sync_mismatch (hc : r.cursor.toNat ≤ 1) (hb : b ≠ 0x55) :
    r.consume cfg b = { r with cursor := 0, status := .headerNotFound } := by
  obtain h | h : r.cursor.toNat = 0 ∨ r.cursor.toNat = 1 := by omega
  all_goals
    simp only [Regs.consume, h]
    exact if_pos hb

theorem consume_headerLow (hc : r.cursor = 0) :
    r.consume cfg 0x55 = { r with header := 0x0055, cursor := 1, status := .packetBuilding } := by
  simp [Regs.consume, Regs.building, hc, lowByte, sync, setLow]

theorem consume_headerHigh (hc : r.cursor = 1) :
    r.consume cfg 0x55 =
      { r with header := 0x5500 ||| (r.header &&& 0x00FF), cursor := 2, status := .packetBuilding } := by
  simp [Regs.consume, Regs.building, hc, highByte, sync, setHigh_eq_or]

theorem consume_checksumLow (hc : r.cursor = 2) :
    r.consume cfg b = { r with checksum := b.setWidth 16, cursor := 3, status := .packetBuilding } := by
  simp [Regs.consume, Regs.building, hc, setLow]

theorem consume_checksumHigh (hc : r.cursor = 3) :
    r.consume cfg b =
      { r with checksum := (b.setWidth 16 <<< 8) ||| (r.checksum &&& 0x00FF), cursor := 4,
               status := .packetBuilding } := by
  simp [Regs.consume, Regs.building, hc, setHigh_eq_or]

theorem consume_request (hc : r.cursor = 4) :
    r.consume cfg b = { r with request := b, cursor := 5, status := .packetBuilding } := by
  simp [Regs.consume, Regs.building, hc]

theorem consume_response (hc : r.cursor = 5) :
    r.consume cfg b = { r with response := b, cursor := 6, status := .packetBuilding } := by
  simp [Regs.consume, Regs.building, hc]

theorem consume_lengthLow (hc : r.cursor = 6) :
    r.consume cfg b = { r with length := b.setWidth 16, cursor := 7, status := .packetBuilding } := by
  simp [Regs.consume, Regs.building, hc, setLow]

theorem consume_lengthHigh (hc : r.cursor = 7) : r.consume cfg b = r.consumeLengthHigh b := by
  simp [Regs.consume, hc]

/-- A length other than 0 announces a payload (R125). -/
theorem consumeLengthHigh_of_ne_zero (hc : r.cursor = 7) (hn : setHigh r.length b ≠ 0) :
    r.consumeLengthHigh b =
      { r with length := setHigh r.length b, dataCursor := 0, cursor := 8, status := .packetBuilding } := by
  rw [Regs.consumeLengthHigh, if_neg hn]
  simp [Regs.building, hc]

/-- The window of an empty payload is the two codes and a zero length (40_checksum.md R101). -/
theorem windowBytes_of_length_zero (h : r.length = 0) : r.windowBytes = [r.request, r.response, 0, 0] := by
  simp [Regs.windowBytes, h, lowByte, highByte, Memory.readRun]

/-- A length of 0 completes the frame on this byte (R125, R128). -/
theorem consumeLengthHigh_of_eq_zero (hc : r.cursor = 7) (hn : setHigh r.length b = 0) :
    r.consumeLengthHigh b =
      { r with length := 0, dataCursor := 0, cursor := 8,
               status := Spec.verdict (crc16 [r.request, r.response, 0, 0]) r.checksum } := by
  simp [Regs.consumeLengthHigh, hn, Regs.complete, hc, windowBytes_of_length_zero, Regs.verdict, Spec.verdict]

end

/-- Settles O21: the two length arms of the state machine, the second by whether the length received is 0. -/
theorem lengthIsStoredAndEmptyFrameCompletes : Obligations.LengthIsStoredAndEmptyFrameCompletes := by
  intro s b hs
  refine ⟨fun hc => exec_consumeByte_of_accepts hs (consume_lengthLow hc), fun hc n hn => ?_⟩
  rw [← setHigh_eq_or] at hn
  subst hn
  refine ⟨fun hne => ?_, ?_⟩
  · exact exec_consumeByte_of_accepts hs ((consume_lengthHigh hc).trans (consumeLengthHigh_of_ne_zero hc hne))
  · rintro hzero _ rfl
    exact exec_consumeByte_of_accepts hs ((consume_lengthHigh hc).trans (consumeLengthHigh_of_eq_zero hc hzero))

/-- Settles O19: the two sync arms of the state machine, by whether the byte is 0x55. -/
theorem syncBytesAreStoredOrHeaderNotFound : Obligations.SyncBytesAreStoredOrHeaderNotFound := by
  intro s b hs
  refine ⟨fun hc hb => ?_, ?_, ?_⟩
  · exact exec_consumeByte_of_accepts hs (consume_sync_mismatch hc hb)
  · rintro hc rfl
    exact exec_consumeByte_of_accepts hs (consume_headerLow hc)
  · rintro hc rfl
    refine ⟨exec_consumeByte_of_accepts hs (consume_headerHigh hc), fun hlow => ?_⟩
    rw [hlow]
    rfl

/-- Settles O20: the four arms between the sync bytes and the length, none of which looks at the byte. -/
theorem checksumAndCodesAreStoredVerbatim : Obligations.ChecksumAndCodesAreStoredVerbatim := fun _ _ hs =>
  ⟨fun hc => exec_consumeByte_of_accepts hs (consume_checksumLow hc),
    fun hc => exec_consumeByte_of_accepts hs (consume_checksumHigh hc),
    fun hc => exec_consumeByte_of_accepts hs (consume_request hc),
    fun hc => exec_consumeByte_of_accepts hs (consume_response hc)⟩

end Sys2Proof.Proofs
end

section
/-!
Emission: the cursor rewind and the frame length (42_emission.md R152, R156).
-/
namespace Sys2Proof.Proofs
open Sys2Proof.Machine

/-- RESET_CURSOR runs the same way in every state (R152). -/
theorem exec_resetCursor (s : State) : exec .resetCursor s = s.reply { s.regs with cursor := 0 } .ok 0 := rfl

/-- FRAME_LENGTH answers the frame length as a value word (R156). -/
theorem exec_frameLength (s : State) :
    exec .frameLength s = s.reply s.regs .ok (BitVec.ofNat 32 s.regs.frameLength) := rfl

theorem frameLength_eq (r : Regs) : r.frameLength = 8 + r.length.toNat := rfl

/-- LENGTH has 16 bits, so the frame length fits in the value word. -/
theorem toNat_ofNat_frameLength (r : Regs) : (BitVec.ofNat 32 r.frameLength).toNat = r.frameLength := by
  have hlength : r.length.toNat < 2 ^ 16 := r.length.isLt
  rw [BitVec.toNat_ofNat, frameLength_eq, Nat.mod_eq_of_lt (by omega)]

/-- Settles O12: the word is one evaluation of the encoder; the rest is the command's only outcome. -/
theorem resetCursorWritesOnlyCursor : Obligations.ResetCursorWritesOnlyCursor := by
  refine ⟨by decide, fun s => ?_⟩
  rw [exec_resetCursor, reply_eq]
  rfl

/-- Settles O29: the value is the frame length, which does not wrap (`toNat_ofNat_frameLength`). -/
theorem frameLengthReturnsHeaderPlusLength : Obligations.FrameLengthReturnsHeaderPlusLength := by
  refine ⟨by decide, fun s => ⟨BitVec.ofNat 32 s.regs.frameLength, ?_, ?_⟩⟩
  · rw [exec_frameLength, reply_eq]
    rfl
  · rw [toNat_ofNat_frameLength, frameLength_eq]

end Sys2Proof.Proofs
end

section
/-!
The payload window and the command word, in the terms of the statements: what the packing commands share
(30_encoding.md R71, R74, 40_checksum.md R101).
-/
namespace Sys2Proof.Proofs
open Sys2Proof.Machine

theorem lowByte_eq_lo (h : Half) : lowByte h = Spec.lo h := rfl

theorem highByte_eq_hi (h : Half) : highByte h = Spec.hi h := rfl

/-- The model's window is the window of R101. -/
theorem windowBytes_eq_window (r : Regs) : r.windowBytes = Spec.window r := by
  simp [Regs.windowBytes, Spec.window, Spec.payload, lowByte_eq_lo, highByte_eq_hi, Memory.readRun_eq_map]

/-- The word of OP and the fields A and B, as shifts: OP in bits 31:24, A in 23:16, B in 15:0 (R71). -/
theorem word_eq_or (op a : Byte) (b : Half) :
    (op ++ (a ++ b) : Word) = (op.setWidth 32 <<< 24) ||| (a.setWidth 32 <<< 16) ||| b.setWidth 32 :=
  calc (op ++ (a ++ b) : Word) = ((op ++ (a ++ b) : Word)).setWidth 32 := (BitVec.setWidth_eq _).symm
    _ = (op.setWidth 32 <<< 24) ||| ((a.setWidth 32 <<< 16) ||| b.setWidth 32) := by
      rw [BitVec.setWidth_append_eq_shiftLeft_setWidth_or, BitVec.setWidth_append_eq_shiftLeft_setWidth_or]
    _ = _ := (BitVec.or_assoc _ _ _).symm

/-- A burst length that fits in field B is the number the word holds (R72). -/
theorem setWidth_burstLength {n : Nat} (hn : n ≤ 65535) : (BitVec.ofNat 16 n).setWidth 32 = BitVec.ofNat 32 n :=
  BitVec.setWidth_ofNat_of_le_of_lt (by decide) (Nat.lt_succ_of_le hn)

end Sys2Proof.Proofs
end

section
/-!
SET_PAYLOAD, RESPOND_WITH_DATA and RESPOND_WITH_ERROR (43_packing_and_response.md R172 to R178).
-/
namespace Sys2Proof.Proofs
open Sys2Proof.Machine

/-- The registers after an append of `bytes` that fits. -/
def appended (r : Regs) (bytes : List Byte) : Regs :=
  { r with data := r.data.writeRun r.length.toNat bytes
           length := BitVec.ofNat 16 (r.length.toNat + bytes.length) }

section
variable {s : State} {r : Regs} {bytes : List Byte}

theorem append_of_fits {cfg : Config} (hfits : r.length.toNat + bytes.length ≤ cfg.capacity.toNat) :
    r.append cfg bytes = some (appended r bytes) :=
  ((append_cases cfg r bytes).resolve_left fun h => Nat.not_lt.mpr hfits h.1).2

theorem append_of_overflow {cfg : Config} (hover : cfg.capacity.toNat < r.length.toNat + bytes.length) :
    r.append cfg bytes = none :=
  ((append_cases cfg r bytes).resolve_right fun h => Nat.not_lt.mpr h.1 hover).2

theorem appended_length_toNat (cfg : Config) (hfits : r.length.toNat + bytes.length ≤ cfg.capacity.toNat) :
    (appended r bytes).length.toNat = r.length.toNat + bytes.length := append_length_toNat cfg r bytes hfits

/-- The appended bytes stand from LENGTH on, and every other byte is as before. -/
theorem appended_read (hwf : r.data.wf) (a : Nat) :
    (appended r bytes).data.read a =
      if r.length.toNat ≤ a ∧ a < r.length.toNat + bytes.length then bytes.getD (a - r.length.toNat) 0
      else r.data.read a := Memory.read_writeRun hwf r.length.toNat bytes a

/-- The window holds neither CHECKSUM nor HEADER, so packing leaves it as it was. -/
theorem window_stamp (r : Regs) : Spec.window r.stamp = Spec.window r := rfl

/-- PACK's writes: CHECKSUM is the CRC of the window that stands after them (R170). -/
theorem stamp_eq (r : Regs) : r.stamp = { r with checksum := crc16 (Spec.window r.stamp), header := 0x5555 } := by
  rw [window_stamp, ← windowBytes_eq_window]
  rfl

theorem exec_setPayload_of_fits (hfits : s.regs.length.toNat + bytes.length ≤ s.cfg.capacity.toNat) :
    exec (.setPayload bytes) s = .next (Spec.after s (appended s.regs bytes) .ok 0) := by
  show execSetPayload bytes s = _
  rw [execSetPayload, append_of_fits hfits]
  rfl

theorem exec_setPayload_of_overflow (hover : s.cfg.capacity.toNat < s.regs.length.toNat + bytes.length) :
    exec (.setPayload bytes) s = .next (Spec.after s s.regs .packetOverflow 0) := by
  show execSetPayload bytes s = _
  rw [execSetPayload, append_of_overflow hover]
  rfl

/-- REQUEST is written before the append, which does not read it, and RESPONSE after it. -/
theorem exec_respondWithData_of_fits (request : Byte)
    (hfits : s.regs.length.toNat + bytes.length ≤ s.cfg.capacity.toNat) :
    exec (.respondWithData request bytes) s =
      .next (Spec.after s (Regs.stamp { appended s.regs bytes with request := request, response := 0x00 }) .ok 0) := by
  show execRespondWithData request bytes s = _
  rw [execRespondWithData, append_of_fits (r := { s.regs with request := request }) hfits]
  rfl

theorem exec_respondWithData_of_overflow (request : Byte)
    (hover : s.cfg.capacity.toNat < s.regs.length.toNat + bytes.length) :
    exec (.respondWithData request bytes) s =
      .next (Spec.after s { s.regs with request := request, response := 0xFF } .packetOverflow 0) := by
  show execRespondWithData request bytes s = _
  rw [execRespondWithData, append_of_overflow (r := { s.regs with request := request }) hover]
  rfl

end

/-- RESPOND_WITH_ERROR looks at no capacity: it packs the empty payload. -/
theorem exec_respondWithError (request code : Byte) (s : State) :
    exec (.respondWithError request code) s =
      s.reply (Regs.stamp { s.regs with request := request, response := code, length := 0 }) .ok 0 := rfl

theorem encodeWord_setPayload {bytes : List Byte} (hn : bytes.length ≤ 65535) :
    encodeWord (.setPayload bytes) = 0x31000000 ||| BitVec.ofNat 32 bytes.length := by
  rw [← setWidth_burstLength hn]
  exact word_eq_or 0x31 0 _

theorem encodeWord_respondWithData (request : Byte) {bytes : List Byte} (hn : bytes.length ≤ 65535) :
    encodeWord (.respondWithData request bytes) =
      0x32000000 ||| (request.setWidth 32 <<< 16) ||| BitVec.ofNat 32 bytes.length := by
  rw [← setWidth_burstLength hn]
  exact word_eq_or 0x32 request _

theorem encodeWord_respondWithError (request code : Byte) :
    encodeWord (.respondWithError request code) =
      0x33000000 ||| (request.setWidth 32 <<< 16) ||| code.setWidth 32 := by
  have hcode : (code.setWidth 16).setWidth 32 = code.setWidth 32 :=
    BitVec.setWidth_setWidth (by decide)
  rw [← hcode]
  exact word_eq_or 0x33 request _

/-- Settles O32: by whether the burst fits; the buffer after an append that fits is `appended_read`. -/
theorem setPayloadAppendsAllOrNothing : Obligations.SetPayloadAppendsAllOrNothing := by
  intro s bytes hwf
  refine ⟨encodeWord_setPayload, fun hfits => ?_, exec_setPayload_of_overflow⟩
  exact ⟨_, exec_setPayload_of_fits hfits, rfl, appended_length_toNat s.cfg hfits, appended_read hwf⟩

/-- Settles O33: by whether the burst fits; what is packed is the window after the append (`stamp_eq`). -/
theorem respondWithDataAppendsAndPacksOrReportsError :
    Obligations.RespondWithDataAppendsAndPacksOrReportsError := by
  intro s request bytes hwf
  refine ⟨encodeWord_respondWithData request, fun hfits => ?_, exec_respondWithData_of_overflow request⟩
  exact ⟨_, exec_respondWithData_of_fits request hfits, congrArg (Spec.after s · .ok 0) (stamp_eq _),
    appended_length_toNat s.cfg hfits, appended_read hwf⟩

/-- Settles O34: the window of the emptied payload is the two codes and a zero length
(`windowBytes_of_length_zero`). -/
theorem respondWithErrorEmptiesThePayloadAndPacks : Obligations.RespondWithErrorEmptiesThePayloadAndPacks := by
  intro s request code
  refine ⟨encodeWord_respondWithError request code, ?_⟩
  rw [exec_respondWithError, Regs.stamp, windowBytes_of_length_zero rfl, reply_eq]
  rfl

end Sys2Proof.Proofs
end

section
/-!
One step of the CRC, which no two values of the CRC or of the byte share (40_checksum.md R102, R103, R105).
-/
namespace Sys2Proof.Proofs
open Sys2Proof.Machine

/-- The shift of R103, as one XOR whichever bit is shifted out. -/
theorem crcShift_eq_xor (c : Half) : crcShift c = (c >>> 1) ^^^ (if c.getLsbD 0 then 0xA001 else 0) := by
  rw [crcShift]
  split
  · rfl
  · exact BitVec.xor_zero.symm

/-- 0xA001 has bit 15 set and the shift clears it, so the bit shifted out can be read there. -/
theorem getLsbD_fifteen_crcShift (c : Half) : (crcShift c).getLsbD 15 = c.getLsbD 0 := by
  rw [crcShift_eq_xor]
  cases hc : c.getLsbD 0 <;> simp

theorem crcShift_injective : Function.Injective crcShift := by
  intro c d h
  have hbit : c.getLsbD 0 = d.getLsbD 0 := by
    rw [← getLsbD_fifteen_crcShift, h, getLsbD_fifteen_crcShift]
  have hshift : c >>> 1 = d >>> 1 := by
    rw [crcShift_eq_xor, crcShift_eq_xor, hbit] at h
    exact (BitVec.xor_left_inj _).mp h
  apply BitVec.eq_of_getLsbD_eq
  intro i _
  cases i with
  | zero => exact hbit
  | succ i => simpa [Nat.add_comm] using congrArg (·.getLsbD i) hshift

theorem crcShift8_injective : Function.Injective crcShift8 := by
  have h2 := crcShift_injective.comp crcShift_injective
  have h4 := h2.comp h2
  exact h4.comp h4

theorem crcShift_xor (c d : Half) : crcShift (c ^^^ d) = crcShift c ^^^ crcShift d := by
  have hmask (p q : Bool) (m : Half) :
      (if p ^^ q then m else 0) = (if p then m else 0) ^^^ (if q then m else 0) := by
    cases p <;> cases q <;> simp
  rw [crcShift_eq_xor, crcShift_eq_xor c, crcShift_eq_xor d, BitVec.ushiftRight_xor_distrib, BitVec.getLsbD_xor,
    hmask]
  ac_rfl

theorem crcShift8_xor (c d : Half) : crcShift8 (c ^^^ d) = crcShift8 c ^^^ crcShift8 d := by
  simp only [crcShift8, crcShift_xor]

/-- A zero bit shifted out changes nothing else. -/
theorem crcShift_ushiftRight {c : Half} {k : Nat} (hk : c.getLsbD k = false) : crcShift (c >>> k) = c >>> (k + 1) := by
  rw [crcShift, if_neg (by simp [hk]), BitVec.shiftRight_add]

theorem crcShift8_of_low_zero {c : Half} (h : ∀ k < 8, c.getLsbD k = false) : crcShift8 c = c >>> 8 := by
  conv_lhs => rw [← BitVec.ushiftRight_zero c]
  simp only [crcShift8, crcShift_ushiftRight, h, Nat.reduceAdd, Nat.reduceLT]

/-- A byte reaches only the low half of the CRC it is combined with. -/
theorem xor_byte_eq_low_xor_high (crc : Half) (b : Byte) :
    crc ^^^ BitVec.zeroExtend 16 b =
      BitVec.zeroExtend 16 (lowByte (crc ^^^ BitVec.zeroExtend 16 b)) ^^^ (crc >>> 8 <<< 8) := by
  apply BitVec.eq_of_getLsbD_eq
  intro i hi
  by_cases hlow : i < 8
  · simp [lowByte, hi, hlow]
  · have hbyte (x : Byte) : x.getLsbD i = false := BitVec.getLsbD_of_ge x i (Nat.le_of_not_lt hlow)
    simp [hi, hlow, hbyte, show 8 + (i - 8) = i by omega]

/-- One byte of the table-driven loop of R102 is one byte of the bitwise loop of R105: the table entry is the low half
shifted out, and the high half moves down unchanged. -/
theorem crcUpdate_eq_crcShift8 (crc : Half) (b : Byte) :
    crcUpdate crc b = crcShift8 (crc ^^^ BitVec.zeroExtend 16 b) := by
  have hhigh : crcShift8 (crc >>> 8 <<< 8) = crc >>> 8 := by
    rw [crcShift8_of_low_zero fun k hk => by simp [hk]]
    apply BitVec.eq_of_getLsbD_eq
    intro i _
    simpa using fun h : crc.getLsbD (8 + i) = true => BitVec.lt_of_getLsbD h
  rw [xor_byte_eq_low_xor_high, crcShift8_xor, hhigh]
  rfl

theorem crcUpdate_injective_crc (b : Byte) : Function.Injective (crcUpdate · b) := by
  intro c d h
  simp only [crcUpdate_eq_crcShift8] at h
  exact (BitVec.xor_left_inj _).mp (crcShift8_injective h)

theorem crcUpdate_injective_byte (crc : Half) : Function.Injective (crcUpdate crc) := by
  intro a b h
  rw [crcUpdate_eq_crcShift8, crcUpdate_eq_crcShift8] at h
  have hwide : BitVec.zeroExtend 16 a = BitVec.zeroExtend 16 b :=
    (BitVec.xor_right_inj _).mp (crcShift8_injective h)
  simpa using congrArg (BitVec.setWidth 8) hwide

/-- Equal bytes read after it leave two CRCs apart. -/
theorem foldl_crcUpdate_injective (bytes : List Byte) : Function.Injective (bytes.foldl crcUpdate) := by
  induction bytes with
  | nil => exact Function.injective_id
  | cons b bytes ih => exact ih.comp (crcUpdate_injective_crc b)

/-- Two byte lists that differ only in their first byte have different CRCs (R107). -/
theorem crc16_cons_eq_iff (a b : Byte) (bytes : List Byte) : crc16 (a :: bytes) = crc16 (b :: bytes) ↔ a = b :=
  (foldl_crcUpdate_injective bytes).eq_iff.trans (crcUpdate_injective_byte 0).eq_iff

end Sys2Proof.Proofs
end

section
/-!
The setters, getters and resets (45_fields_and_resets.md R210 to R221).
-/
namespace Sys2Proof.Proofs
open Sys2Proof.Machine

/-- A result, in the terms of the statements. -/
theorem reply_eq_after (s : State) (r : Regs) (st : Status) (v : Word) :
    s.reply r st v = .next (Spec.after s r st v) := rfl

/-- A getter writes no register. -/
theorem get_eq_after (s : State) (v : Word) : s.get v = .next (Spec.after s s.regs .ok v) := reply_eq_after ..

theorem exec_setRequest (v : Byte) (s : State) :
    exec (.setRequest v) s = .next (Spec.after s { s.regs with request := v } .ok 0) := reply_eq_after ..

theorem exec_setResponse (v : Byte) (s : State) :
    exec (.setResponse v) s = .next (Spec.after s { s.regs with response := v } .ok 0) := reply_eq_after ..

theorem exec_resetLazy (s : State) :
    exec .resetLazy s = .next (Spec.after s s.regs.clearAllButData .ok 0) := reply_eq_after ..

/-- With the buffer zeroed too, the registers are those of a new engine (R221). -/
theorem exec_resetFull (s : State) : exec .resetFull s = .next (Spec.after s Regs.reset .ok 0) := reply_eq_after ..

/-- Every index below CAPACITY is readable, whatever LENGTH is (R217). -/
theorem exec_getDataByte_of_lt {s : State} {index : Half} (h : index.toNat < s.cfg.capacity.toNat) :
    exec (.getDataByte index) s =
      .next (Spec.after s s.regs .ok ((s.regs.data.read index.toNat).setWidth 32)) := by
  show execGetDataByte index s = _
  rw [execGetDataByte, Regs.dataByte, if_pos h]
  exact get_eq_after ..

theorem encodeWord_setRequest (v : Byte) : encodeWord (.setRequest v) = 0x50000000 ||| (v.setWidth 32 <<< 16) :=
  (word_eq_or 0x50 v 0).trans BitVec.or_zero

theorem encodeWord_setResponse (v : Byte) : encodeWord (.setResponse v) = 0x51000000 ||| (v.setWidth 32 <<< 16) :=
  (word_eq_or 0x51 v 0).trans BitVec.or_zero

/-- REQUEST is the first byte of the window, so the CRC tells any two of its values apart (R210). -/
theorem packed_setRequest_iff {s : State} (hs : Spec.packed s) (v : Byte) (st : Status) (w : Word) :
    Spec.packed (Spec.after s { s.regs with request := v } st w) ↔ v = s.regs.request := by
  obtain ⟨hlength, hheader, hchecksum⟩ := hs
  have hcrc : s.regs.checksum = crc16 (Spec.window { s.regs with request := v }) ↔ v = s.regs.request := by
    rw [hchecksum]
    exact (crc16_cons_eq_iff ..).trans eq_comm
  exact ⟨fun ⟨_, _, h⟩ => hcrc.mp h, fun h => ⟨hlength, hheader, hcrc.mpr h⟩⟩

/-- A cleared HEADER is not the sync header. -/
theorem not_packed_of_header_zero {s : State} (h : s.regs.header = 0) : ¬ Spec.packed s := by
  rintro ⟨-, hheader, -⟩
  rw [h] at hheader
  cases hheader

/-- Settles O41: each setter has one outcome, and a packed packet survives exactly the old request
(`packed_setRequest_iff`). -/
theorem settersWriteTheirCode : Obligations.SettersWriteTheirCode := by
  intro s v
  refine ⟨encodeWord_setRequest v, encodeWord_setResponse v, exec_setRequest v s, exec_setResponse v s, ?_⟩
  intro hs t ht
  rw [exec_setRequest] at ht
  cases ht
  exact packed_setRequest_iff hs v _ _

/-- Settles O10: the buffer stays, so its bytes read as before; LENGTH and HEADER are 0, so the frame is the 8 header
bytes and the packet is not packed. -/
theorem resetLazyClearsAllButData : Obligations.ResetLazyClearsAllButData := by
  refine ⟨by decide, fun s => ⟨_, exec_resetLazy s, rfl, ?_, fun index h => ?_, ?_⟩⟩
  · exact exec_frameLength _
  · exact exec_getDataByte_of_lt h
  · exact not_packed_of_header_zero (Regs.clearAllButData_header s.regs)

/-- Settles O11: the registers left are those of a new engine, whose buffer reads 0 everywhere. -/
theorem resetFullClearsEverything : Obligations.ResetFullClearsEverything := by
  refine ⟨by decide, fun s => ⟨_, exec_resetFull s, rfl, Memory.read_nil, fun index h => ?_, rfl⟩⟩
  exact exec_getDataByte_of_lt h

/-- Settles O42: each word is one evaluation of the encoder, and each command is `State.get` of its field. -/
theorem gettersReturnTheirField : Obligations.GettersReturnTheirField := by
  refine ⟨by decide, by decide, by decide, by decide, by decide, by decide, by decide, fun s => ?_⟩
  exact ⟨get_eq_after s _, get_eq_after s _, get_eq_after s _, get_eq_after s _, get_eq_after s _, get_eq_after s _,
    get_eq_after s _⟩

end Sys2Proof.Proofs
end

section
/-!
The decoder and the encoder: a command word by its fields, and each direction of the round trip
(30_encoding.md R71 to R81).
-/
namespace Sys2Proof.Proofs
open Sys2Proof.Machine

/-! A word is OP over A over B, and so is determined by them (R71). -/

theorem wordOp_append_wordAB (w : Word) : (wordOp w ++ wordAB w : Word) = w :=
  BitVec.extractLsb'_append_extractLsb' (w := 8) (len := 24)

theorem wordA_append_wordB (w : Word) : (wordA w ++ wordB w : BitVec 24) = wordAB w :=
  BitVec.extractLsb'_append_extractLsb'_eq_extractLsb' rfl

@[simp] theorem wordA_append (c a : Byte) (b : Half) : wordA (c ++ (a ++ b)) = a :=
  (BitVec.extractLsb'_append_eq_of_add_le (by decide)).trans BitVec.extractLsb'_append_eq_left

@[simp] theorem wordB_append (c a : Byte) (b : Half) : wordB (c ++ (a ++ b)) = b :=
  (BitVec.extractLsb'_append_eq_of_add_le (by decide)).trans BitVec.extractLsb'_append_eq_right

/-- A[0], where the one-bit operands stand (R80). -/
theorem wordBit_append (c a : Byte) (b : Half) : BitVec.getLsbD (w := 32) (c ++ (a ++ b)) 16 = a.getLsbD 0 := by
  rw [getLsbD_word, getLsbD_operands]
  rfl

/-- B[7:0], where the second operand of RESPOND_WITH_ERROR stands (R80). -/
theorem wordLowByte_append (c a : Byte) (b : Half) :
    BitVec.extractLsb' 0 8 (c ++ (a ++ b) : Word) = b.extractLsb' 0 8 :=
  (BitVec.extractLsb'_append_eq_of_add_le (by decide)).trans (BitVec.extractLsb'_append_eq_of_add_le (by decide))

/-- Two appended fields are zero under an appended mask exactly when each is zero under its own. -/
theorem append_and_append_eq_zero {v w : Nat} {a m : BitVec v} {b n : BitVec w} :
    (a ++ b) &&& (m ++ n) = 0 ↔ a &&& m = 0 ∧ b &&& n = 0 := by
  rw [BitVec.and_append]
  refine ⟨fun h => ⟨?_, ?_⟩, fun ⟨ha, hb⟩ => by rw [ha, hb]; exact BitVec.zero_append_zero⟩
  · rw [← BitVec.extractLsb'_append_eq_left (a := a &&& m) (b := b &&& n), h]
    exact BitVec.extractLsb'_zero
  · rw [← BitVec.extractLsb'_append_eq_right (a := a &&& m) (b := b &&& n), h]
    exact BitVec.extractLsb'_zero

/-- The operand fields of a word are zero under a mask exactly when A and B are. -/
theorem wordAB_and_append_eq_zero {w : Word} (m : Byte) (n : Half) :
    wordAB w &&& (m ++ n) = 0 ↔ wordA w &&& m = 0 ∧ wordB w &&& n = 0 := by
  rw [← wordA_append_wordB]
  exact append_and_append_eq_zero

/-- A word has a row exactly when its OP is the row's, the bits the row marks 0 are 0, and an identity reply announces
its 32 bytes (R74, R78). -/
theorem decodeWord_eq_ok_iff {w : Word} {op : Opcode} :
    decodeWord w = .ok op ↔
      wordOp w = op.code ∧ wordAB w &&& op.zeroBits = 0 ∧ (op = .respondWithIdentity → wordB w = 0x0020) := by
  constructor
  · intro h
    unfold decodeWord at h
    split at h
    · cases h
    next op' hfind =>
      split at h
      · cases h
      next hzero =>
        split at h
        · cases h
        next hlength =>
          cases h
          exact ⟨(find_code hfind).symm, not_not.mp hzero, fun hop => by simpa [hop] using hlength⟩
  · rintro ⟨hop, hzero, hlength⟩
    rw [decodeWord, hop, find_of_code]
    simp only [hzero, ne_eq, not_true_eq_false, if_false]
    exact if_neg fun ⟨hop', hb⟩ => hb (hlength hop')

/-! From the command to its bytes and back. -/

theorem wordLegal (i : Instr) : Laws.WordLegal.Statement i := by
  cases i with
  | checksum store => exact Laws.WordLegal.checksum store
  | consumeByte b => exact Laws.WordLegal.consumeByte b
  | frameByte index => exact Laws.WordLegal.frameByte index
  | setPayload bytes => exact Laws.WordLegal.setPayload bytes
  | respondWithData request bytes => exact Laws.WordLegal.respondWithData request bytes
  | respondWithError request code => exact Laws.WordLegal.respondWithError request code
  | respondWithIdentity ascii record => exact Laws.WordLegal.respondWithIdentity ascii record
  | setRequest v => exact Laws.WordLegal.setRequest v
  | setResponse v => exact Laws.WordLegal.setResponse v
  | getDataByte index => exact Laws.WordLegal.getDataByte index
  | validate | nextByte | resetCursor | frameLength | pack | dataidDecode | getHeader | getChecksum | getRequest
  | getResponse | getDataLength | getStatus | getCapacity | resetLazy | resetFull =>
    exact Laws.WordLegal.of_zeroBits (by decide)

theorem decodeWord_encodeWord (i : Instr) : decodeWord (encodeWord i) = .ok i.opcode := by
  obtain ⟨hop, hoperands, hzero⟩ := wordLegal i
  refine decodeWord_eq_ok_iff.mpr ⟨hop, by rw [hoperands]; exact hzero, fun hid => ?_⟩
  cases i with
  | respondWithIdentity ascii record => exact wordB_append _ _ _
  | _ => cases hid

/-- Field B of a well-formed command with a burst is the burst's length (R72). -/
theorem burstLength_encodeWord {i : Instr} (hi : i.wellFormed = true) :
    burstLength i.opcode (wordB (encodeWord i)) = i.burst.length := by
  cases i with
  | setPayload bytes | respondWithData _ bytes =>
    have hn : bytes.length ≤ 65535 := of_decide_eq_true hi
    show (wordB (_ ++ (_ ++ BitVec.ofNat 16 bytes.length))).toNat = bytes.length
    rw [wordB_append, BitVec.toNat_ofNat]
    omega
  | respondWithIdentity _ record =>
    have hn : record.length = 32 := of_decide_eq_true hi
    show (wordB (_ ++ (_ ++ (0x0020 : Half)))).toNat = record.length
    rw [wordB_append, hn]
    rfl
  | _ => rfl

/-- What the low byte of a field received first leaves in it (41_construction.md R122). -/
theorem lowByte_setLow (b : Byte) : lowByte (setLow b) = b :=
  BitVec.extractLsb'_setWidth_of_le (by decide) |>.trans BitVec.extractLsb'_eq_self

/-- Operand assembly reads back every operand (R80). -/
theorem assemble_encodeWord (i : Instr) : assemble i.opcode (encodeWord i) i.burst = i := by
  cases i with
  | checksum flag => exact congrArg Instr.checksum ((wordBit_append _ _ _).trans (by cases flag <;> rfl))
  | respondWithIdentity flag record =>
    exact congrArg (Instr.respondWithIdentity · record) ((wordBit_append _ _ _).trans (by cases flag <;> rfl))
  | consumeByte v => exact congrArg Instr.consumeByte (wordA_append _ _ _)
  | setRequest v => exact congrArg Instr.setRequest (wordA_append _ _ _)
  | setResponse v => exact congrArg Instr.setResponse (wordA_append _ _ _)
  | respondWithData request bytes => exact congrArg (Instr.respondWithData · bytes) (wordA_append _ _ _)
  | respondWithError request code =>
    exact congrArg₂ Instr.respondWithError (wordA_append _ _ _)
      ((wordLowByte_append _ _ _).trans (lowByte_setLow code))
  | frameByte index => exact congrArg Instr.frameByte (wordAB_append _ _)
  | getDataByte index => exact congrArg Instr.getDataByte (wordB_append _ _ _)
  | _ => rfl

section
variable {w : Word} {op : Opcode} {burst bytes : List Byte}

theorem decode_of_burst (h : decodeWord w = .ok op) (hlen : burst.length = burstLength op (wordB w))
    (rest : List Byte) : decode (wordBytes w ++ burst ++ rest) = .command (assemble op w burst) rest := by
  show decode (_ :: _ :: _ :: _ :: (burst ++ rest)) = _
  simp only [decode, wordOfBytes_extract, h, ← hlen, takeBurst_append]

theorem decode_of_short_burst (h : decodeWord w = .ok op) (hshort : bytes.length < burstLength op (wordB w)) :
    decode (wordBytes w ++ bytes) = .incomplete := by
  show decode (_ :: _ :: _ :: _ :: bytes) = _
  simp only [decode, wordOfBytes_extract, h, (takeBurst_eq_none_iff _ _).mpr hshort]

theorem decode_of_illegal {why : DecodeError} (h : decodeWord w = .error why) (rest : List Byte) :
    decode (wordBytes w ++ rest) = .illegal why rest := by
  show decode (_ :: _ :: _ :: _ :: rest) = _
  simp only [decode, wordOfBytes_extract, h]

theorem decode_of_short_word (h : bytes.length < 4) : decode bytes = .incomplete := by
  match bytes with
  | [] | [_] | [_, _] | [_, _, _] => rfl
  | _ :: _ :: _ :: _ :: _ => simp at h; omega

/-- Four bytes on the stream are those of the word joined from them (log 1). -/
theorem wordBytes_wordOfBytes (b0 b1 b2 b3 : Byte) : wordBytes (wordOfBytes b0 b1 b2 b3) = [b0, b1, b2, b3] := by
  have h0 : (wordOfBytes b0 b1 b2 b3).extractLsb' 0 8 = b0 := BitVec.extractLsb'_append_eq_right
  have h1 : (wordOfBytes b0 b1 b2 b3).extractLsb' 8 8 = b1 :=
    (BitVec.extractLsb'_append_eq_of_le (by decide)).trans BitVec.extractLsb'_append_eq_right
  have h2 : (wordOfBytes b0 b1 b2 b3).extractLsb' 16 8 = b2 :=
    (BitVec.extractLsb'_append_eq_of_le (by decide)).trans
      ((BitVec.extractLsb'_append_eq_of_le (by decide)).trans BitVec.extractLsb'_append_eq_right)
  have h3 : (wordOfBytes b0 b1 b2 b3).extractLsb' 24 8 = b3 :=
    (BitVec.extractLsb'_append_eq_of_le (by decide)).trans
      ((BitVec.extractLsb'_append_eq_of_le (by decide)).trans
        ((BitVec.extractLsb'_append_eq_of_le (by decide)).trans BitVec.extractLsb'_eq_self))
  rw [wordBytes, h0, h1, h2, h3]

theorem wordBytes_injective {v w : Word} (h : wordBytes v = wordBytes w) : v = w := by
  simp only [wordBytes, List.cons.injEq] at h
  obtain ⟨h0, h1, h2, h3, -⟩ := h
  rw [← wordOfBytes_extract v, ← wordOfBytes_extract w, h0, h1, h2, h3]

/-- A stream of four bytes or more begins with a word. -/
theorem exists_wordBytes (h : 4 ≤ bytes.length) : ∃ w rest, bytes = wordBytes w ++ rest := by
  match bytes, h with
  | b0 :: b1 :: b2 :: b3 :: rest, _ =>
    exact ⟨wordOfBytes b0 b1 b2 b3, rest, by rw [wordBytes_wordOfBytes]; rfl⟩

/-- A decoded command comes from a word with a row and a burst of the length announced. -/
theorem decode_eq_command {i : Instr} {rest : List Byte} (h : decode bytes = .command i rest) :
    ∃ w op burst, bytes = wordBytes w ++ burst ++ rest ∧ decodeWord w = .ok op ∧
      burst.length = burstLength op (wordB w) ∧ i = assemble op w burst := by
  by_cases hshort : bytes.length < 4
  · rw [decode_of_short_word hshort] at h
    cases h
  obtain ⟨w, tail, rfl⟩ := exists_wordBytes (Nat.le_of_not_lt hshort)
  cases hw : decodeWord w with
  | error why =>
    rw [decode_of_illegal hw] at h
    cases h
  | ok op =>
    cases hb : takeBurst (burstLength op (wordB w)) tail with
    | none =>
      rw [decode_of_short_burst hw ((takeBurst_eq_none_iff _ _).mp hb)] at h
      cases h
    | some p =>
      obtain ⟨hlen, rfl⟩ := takeBurst_eq_some hb
      rw [← List.append_assoc, decode_of_burst hw hlen] at h
      cases h
      exact ⟨w, op, p.1, (List.append_assoc ..).symm, hw, hlen, rfl⟩

end

/-! Operand assembly loses no bit that the row does not mark 0 (R74, R80). -/

/-- A byte with bits 7:1 zero is its bit 0. -/
theorem eq_flag_of_and_eq_zero :
    ∀ a : Byte, a &&& 0xFE = 0 → BitVec.zeroExtend 8 (BitVec.ofBool (a.getLsbD 0)) = a := by
  decide +kernel

/-- A field B with bits 15:8 zero is its low byte. -/
theorem eq_lowByte_of_and_eq_zero {b : Half} (h : b &&& 0xFF00 = 0) : BitVec.zeroExtend 16 (lowByte b) = b := by
  have hmask : ∀ i < 16, BitVec.getLsbD (0xFF00 : Half) i = decide (8 ≤ i) := by decide
  apply BitVec.eq_of_getLsbD_eq
  intro i hi
  have hbit : (b.getLsbD i && decide (8 ≤ i)) = false := by
    rw [← hmask i hi, ← BitVec.getLsbD_and, h]
    exact BitVec.getLsbD_zero
  by_cases hlow : i < 8
  · simp [lowByte, hlow, hi]
  · simpa [lowByte, hlow, Nat.le_of_not_lt hlow] using hbit.symm

theorem operands_assemble {w : Word} {op : Opcode} {burst : List Byte} (h : decodeWord w = .ok op)
    (hlen : burst.length = burstLength op (wordB w)) : (assemble op w burst).operands = wordAB w := by
  obtain ⟨-, hzero, hid⟩ := decodeWord_eq_ok_iff.mp h
  have hB : BitVec.ofNat 16 (wordB w).toNat = wordB w := BitVec.ofNat_toNat ..
  have hflag (hA : wordA w &&& 0xFE = 0) : BitVec.zeroExtend 8 (BitVec.ofBool (w.getLsbD 16)) = wordA w := by
    have hbit : w.getLsbD 16 = (wordA w).getLsbD 0 := by simp [wordA]
    rw [hbit, eq_flag_of_and_eq_zero _ hA]
  have hall {v : Nat} {x : BitVec v} (h : x &&& BitVec.allOnes v = 0) : x = 0 := by simpa using h
  rw [← wordA_append_wordB]
  cases op with
  | checksum =>
    obtain ⟨hA, hB⟩ := (wordAB_and_append_eq_zero 0xFE 0xFFFF).mp hzero
    exact congrArg₂ (· ++ ·) (hflag hA) (hall hB).symm
  | respondWithIdentity =>
    obtain ⟨hA, -⟩ := (wordAB_and_append_eq_zero 0xFE 0).mp hzero
    exact congrArg₂ (· ++ ·) (hflag hA) (hid rfl).symm
  | consumeByte | setRequest | setResponse =>
    obtain ⟨-, hB⟩ := (wordAB_and_append_eq_zero 0 0xFFFF).mp hzero
    exact congrArg (wordA w ++ ·) (hall hB).symm
  | respondWithError =>
    obtain ⟨-, hB⟩ := (wordAB_and_append_eq_zero 0 0xFF00).mp hzero
    have hlow : lowByte (wordB w) = w.extractLsb' 0 8 := BitVec.extractLsb'_extractLsb'_of_le (by decide)
    exact congrArg (wordA w ++ ·) (hlow ▸ eq_lowByte_of_and_eq_zero hB)
  | setPayload =>
    obtain ⟨hA, -⟩ := (wordAB_and_append_eq_zero 0xFF 0).mp hzero
    exact congrArg₂ (· ++ ·) (hall hA).symm ((congrArg _ hlen).trans hB)
  | getDataByte =>
    obtain ⟨hA, -⟩ := (wordAB_and_append_eq_zero 0xFF 0).mp hzero
    exact congrArg (· ++ wordB w) (hall hA).symm
  | respondWithData => exact congrArg (wordA w ++ ·) ((congrArg _ hlen).trans hB)
  | frameByte => exact (wordA_append_wordB w).symm
  | _ => exact (hall hzero).symm.trans (wordA_append_wordB w).symm

theorem opcode_assemble (op : Opcode) (w : Word) (burst : List Byte) : (assemble op w burst).opcode = op := by
  cases op <;> rfl

theorem encodeWord_assemble {w : Word} {op : Opcode} {burst : List Byte} (h : decodeWord w = .ok op)
    (hlen : burst.length = burstLength op (wordB w)) : encodeWord (assemble op w burst) = w := by
  obtain ⟨hop, -, -⟩ := decodeWord_eq_ok_iff.mp h
  rw [encodeWord, operands_assemble h hlen, opcode_assemble, ← hop, wordOp_append_wordAB]

theorem burst_assemble {w : Word} {op : Opcode} {burst : List Byte} (hlen : burst.length = burstLength op (wordB w)) :
    (assemble op w burst).burst = burst := by
  cases op with
  | setPayload | respondWithData | respondWithIdentity => rfl
  | _ => exact (List.length_eq_zero_iff.mp hlen).symm

theorem wellFormed_assemble {w : Word} {op : Opcode} {burst : List Byte} (h : decodeWord w = .ok op)
    (hlen : burst.length = burstLength op (wordB w)) : (assemble op w burst).wellFormed = true := by
  obtain ⟨-, -, hid⟩ := decodeWord_eq_ok_iff.mp h
  cases op with
  | setPayload | respondWithData => exact decide_eq_true (hlen ▸ Nat.le_of_lt_succ (wordB w).isLt)
  | respondWithIdentity => exact decide_eq_true (hlen.trans (congrArg BitVec.toNat (hid rfl)))
  | _ => rfl

/-- Settles O1: the word's row is the command's, its burst is taken whole, and the operands read back. -/
theorem decodeOfEncodeIsTheCommand : Obligations.DecodeOfEncodeIsTheCommand := by
  intro i rest hi
  rw [encode, decode_of_burst (decodeWord_encodeWord i) (burstLength_encodeWord hi).symm]
  exact congrArg (Decoded.command · rest) (assemble_encodeWord i)

/-- Settles O2: the command read is assembled from a word and its burst, and encodes to both (`encodeWord_assemble`,
`burst_assemble`). -/
theorem decodedBytesAreTheEncoding : Obligations.DecodedBytesAreTheEncoding := by
  intro bytes i rest h
  obtain ⟨w, op, burst, rfl, hw, hlen, rfl⟩ := decode_eq_command h
  exact ⟨wellFormed_assemble hw hlen, by rw [encode, encodeWord_assemble hw hlen, burst_assemble hlen]⟩

end Sys2Proof.Proofs
end

section
/-!
The opcode table, and which words are illegal (30_encoding.md R74, R78, R79).
-/
namespace Sys2Proof.Proofs
open Sys2Proof.Machine

/-- A word under a mask, field by field. -/
theorem word_and_eq_iff {w : Word} {m c : Byte} {n x : BitVec 24} :
    w &&& (m ++ n) = (c ++ x : Word) ↔ wordOp w &&& m = c ∧ wordAB w &&& n = x := by
  conv_lhs => rw [← wordOp_append_wordAB w, BitVec.and_append]
  refine ⟨fun h => ⟨?_, ?_⟩, fun ⟨ha, hb⟩ => by rw [ha, hb]⟩
  · rw [← wordOp_append (wordOp w &&& m) (wordAB w &&& n), h, wordOp_append]
  · rw [← wordAB_append (wordOp w &&& m) (wordAB w &&& n), h, wordAB_append]

/-- Every row but the identity reply's matches the whole OP and the bits marked 0. -/
theorem tableRow_of_ne {op : Opcode} (h : op ≠ .respondWithIdentity) :
    Spec.tableRow op = ((op.code ++ (0 : BitVec 24) : Word), ((0xFF : Byte) ++ op.zeroBits : Word)) := by
  cases op with
  | respondWithIdentity => exact absurd rfl h
  | _ => rfl

/-- The identity reply's row also fixes field B. -/
theorem identity_fields_iff (w : Word) :
    wordAB w &&& 0xFEFFFF = 0x000020 ↔ wordAB w &&& 0xFE0000 = 0 ∧ wordB w = 0x0020 := by
  have hmask : wordAB w &&& 0xFEFFFF = (wordA w &&& 0xFE) ++ wordB w := by
    rw [← wordA_append_wordB]
    exact (BitVec.and_append (x₂ := 0xFE) (y₂ := BitVec.allOnes 16)).trans
      (congrArg ((wordA w &&& 0xFE) ++ ·) BitVec.and_allOnes)
  have hzero : wordAB w &&& 0xFE0000 = 0 ↔ wordA w &&& 0xFE = 0 :=
    (wordAB_and_append_eq_zero 0xFE 0).trans (and_iff_left BitVec.and_zero)
  rw [hmask, hzero]
  refine ⟨fun h => ⟨?_, ?_⟩, fun ⟨ha, hb⟩ => by rw [ha, hb]; rfl⟩
  · exact BitVec.extractLsb'_append_eq_left.symm.trans (congrArg (BitVec.extractLsb' 16 8) h)
  · exact BitVec.extractLsb'_append_eq_right.symm.trans (congrArg (BitVec.extractLsb' 0 16) h)

/-- Settles O3: mask and match of a row are the conditions of `decodeWord_eq_ok_iff`, field by field. -/
theorem decoderAgreesWithOpcodeTable : Obligations.DecoderAgreesWithOpcodeTable := by
  intro w op
  have hop : wordOp w &&& 0xFF = wordOp w := BitVec.and_allOnes
  rw [decodeWord_eq_ok_iff]
  by_cases hid : op = .respondWithIdentity
  · subst hid
    have hrow := word_and_eq_iff (w := w) (m := 0xFF) (n := 0xFEFFFF) (c := 0x40) (x := 0x000020)
    rw [hop, identity_fields_iff] at hrow
    exact (and_congr_right fun _ => and_congr_right fun _ => ⟨fun h => h rfl, fun h _ => h⟩).trans hrow.symm
  · rw [tableRow_of_ne hid, word_and_eq_iff, hop]
    exact and_congr_right fun _ => and_iff_left fun h => absurd h hid

/-! ## Illegal words -/

theorem toNat_wordOp (w : Word) : (wordOp w).toNat = (w >>> 24).toNat := by
  rw [wordOp, BitVec.extractLsb'_toNat, BitVec.toNat_ushiftRight, Nat.mod_eq_of_lt]
  have := w.isLt
  rw [Nat.shiftRight_eq_div_pow]
  omega

/-- R78's cases (b) and (c), for a word of a known row. -/
theorem illegalWord_of_wordOp {w : Word} {op : Opcode} (h : wordOp w = op.code) :
    Spec.illegalWord w = false ↔
      wordAB w &&& op.zeroBits = 0 ∧ (op = .respondWithIdentity → wordB w = 0x0020) := by
  have hop : (w >>> 24).toNat = op.code.toNat := by rw [← h, toNat_wordOp]
  have hA : (w >>> 16).setWidth 8 = wordA w := BitVec.setWidth_ushiftRight_eq_extractLsb
  have hB : w.setWidth 16 = wordB w := BitVec.setWidth_eq_extractLsb' (by decide)
  have hsplit : op.zeroBits = (op.zeroBits.extractLsb' 16 8 ++ op.zeroBits.extractLsb' 0 16) :=
    (BitVec.extractLsb'_append_extractLsb' (w := 8) (len := 16)).symm
  have h8 (a : Byte) : a &&& 255#8 = a := BitVec.and_allOnes
  have h16 (b : Half) : b &&& 65535#16 = b := BitVec.and_allOnes
  rw [hsplit, wordAB_and_append_eq_zero]
  cases op
  all_goals simp [Spec.illegalWord, hop, hA, hB, Opcode.code, Opcode.zeroBits, h8, h16]

/-- Every OP that R78 does not refuse as such is a row's. -/
theorem exists_code_of_legal {w : Word} (h : Spec.illegalWord w = false) : ∃ op : Opcode, wordOp w = op.code := by
  have hcode : ∀ c : Byte, c.toNat ∈ Opcode.all.map (fun op => op.code.toNat) → ∃ op : Opcode, c = op.code := by
    intro c hc
    obtain ⟨op, -, hop⟩ := List.mem_map.mp hc
    exact ⟨op, (BitVec.eq_of_toNat_eq hop).symm⟩
  refine hcode _ ?_
  rw [toNat_wordOp]
  unfold Spec.illegalWord at h
  split at h
  case h_26 => cases h
  all_goals
    rename_i heq
    rw [heq]
    decide

theorem legal_iff (w : Word) : Spec.illegalWord w = false ↔ ∃ op, decodeWord w = .ok op := by
  constructor
  · intro h
    obtain ⟨op, hop⟩ := exists_code_of_legal h
    exact ⟨op, decodeWord_eq_ok_iff.mpr ⟨hop, (illegalWord_of_wordOp hop).mp h⟩⟩
  · rintro ⟨op, h⟩
    obtain ⟨hop, hlegal⟩ := decodeWord_eq_ok_iff.mp h
    exact (illegalWord_of_wordOp hop).mpr hlegal

theorem exists_error_of_illegal {w : Word} (h : Spec.illegalWord w = true) : ∃ why, decodeWord w = .error why := by
  cases hw : decodeWord w with
  | error why => exact ⟨why, rfl⟩
  | ok op => exact absurd ((legal_iff w).mpr ⟨op, hw⟩) (by simp [h])

end Sys2Proof.Proofs
end

section
/-!
What every command does, once for all of them: it faults for its listed cause (60_exceptions.md R246, R248) and writes
nothing, or it leaves `regsAfter` and returns `statusOf`, `valueOf` and `recordOf`. `exec_eq` ties the four to the
model; what is stated over all commands is read off it.
-/
namespace Sys2Proof.Proofs
open Sys2Proof.Machine

/-- The bytes fit in the buffer after the payload (43_packing_and_response.md R172). -/
abbrev Fits (cfg : Config) (r : Regs) (bytes : List Byte) : Prop :=
  r.length.toNat + bytes.length ≤ cfg.capacity.toNat

/-- The registers that a command leaves when it does not fault. -/
def regsAfter (i : Instr) (cfg : Config) (r : Regs) : Regs :=
  match i with
  | .checksum store => if store then { r with checksum := crc16 (Spec.window r) } else r
  | .validate => { r with status := Spec.verdict (crc16 (Spec.window r)) r.checksum }
  | .consumeByte b => r.consume cfg b
  | .nextByte =>
    if 8 + r.length.toNat ≤ r.cursor.toNat then { r with status := .emissionFinished }
    else { r with cursor := r.cursor + 1, status := .ok }
  | .resetCursor => { r with cursor := 0 }
  | .pack => r.stamp
  | .setPayload bytes => if Fits cfg r bytes then appended r bytes else r
  | .respondWithData request bytes =>
    if Fits cfg r bytes then Regs.stamp { appended r bytes with request := request, response := 0x00 }
    else { r with request := request, response := 0xFF }
  | .respondWithError request code => Regs.stamp { r with request := request, response := code, length := 0 }
  | .respondWithIdentity _ record => if Fits cfg r record then (appended r record).stamp else r
  | .setRequest v => { r with request := v }
  | .setResponse v => { r with response := v }
  | .resetLazy => r.clearAllButData
  | .resetFull => Regs.reset
  | .frameByte _ | .frameLength | .dataidDecode | .getHeader | .getChecksum | .getRequest | .getResponse
  | .getDataLength | .getDataByte _ | .getStatus | .getCapacity => r

/-- The status it returns then (30_encoding.md R76). -/
def statusOf (i : Instr) (cfg : Config) (r : Regs) : Status :=
  match i with
  | .validate => Spec.verdict (crc16 (Spec.window r)) r.checksum
  | .consumeByte b => (r.consume cfg b).status
  | .nextByte => if 8 + r.length.toNat ≤ r.cursor.toNat then .emissionFinished else .ok
  | .setPayload bytes | .respondWithData _ bytes | .respondWithIdentity _ bytes =>
    if Fits cfg r bytes then .ok else .packetOverflow
  | _ => .ok

/-- The value it returns then (30_encoding.md R73). -/
def valueOf (i : Instr) (cfg : Config) (r : Regs) : Word :=
  match i with
  | .checksum _ => (crc16 (Spec.window r)).setWidth 32
  | .nextByte =>
    if 8 + r.length.toNat ≤ r.cursor.toNat then 0 else ((Spec.frame r).getD r.cursor.toNat 0).setWidth 32
  | .frameByte index => ((Spec.frame r).getD index.toNat 0).setWidth 32
  | .frameLength => BitVec.ofNat 32 r.frameLength
  | .getHeader => r.header.setWidth 32
  | .getChecksum => r.checksum.setWidth 32
  | .getRequest => r.request.setWidth 32
  | .getResponse => r.response.setWidth 32
  | .getDataLength => r.length.setWidth 32
  | .getDataByte index => (r.data.read index.toNat).setWidth 32
  | .getStatus => r.status.code.setWidth 32
  | .getCapacity => cfg.capacity.setWidth 32
  | _ => 0

/-- The record it returns then: DATAID_DECODE alone has one (44_dataid.md R196). -/
def recordOf (i : Instr) (r : Regs) : Option (List Byte) :=
  match i with
  | .dataidDecode => some ((List.range 32).map r.data.read)
  | _ => none

/-- The state after a command. -/
def nextState (i : Instr) (s : State) : State :=
  match Spec.faultCause i s with
  | some c => Spec.faulted s c
  | none =>
    { cfg := s.cfg, regs := regsAfter i s.cfg s.regs, pending := s.pending,
      results := .status (statusOf i s.cfg s.regs) (valueOf i s.cfg s.regs) (recordOf i s.regs) :: s.results }

theorem nextState_of_fault {i : Instr} {s : State} {c : FaultCode} (h : Spec.faultCause i s = some c) :
    nextState i s = Spec.faulted s c := by
  rw [nextState, h]

theorem nextState_of_no_fault {i : Instr} {s : State} (h : Spec.faultCause i s = none) :
    nextState i s = { cfg := s.cfg, regs := regsAfter i s.cfg s.regs, pending := s.pending,
                      results := .status (statusOf i s.cfg s.regs) (valueOf i s.cfg s.regs) (recordOf i s.regs) ::
                        s.results } := by
  rw [nextState, h]

/-! ## The commands with more than one way to end -/

/-- Inside the frame and the buffer, a frame byte is the one the frame lists (20_memory.md R53). -/
theorem frameByte_eq_getD_frame {cfg : Config} {r : Regs} {o : Nat} (hframe : o < 8 + r.length.toNat)
    (hbuffer : o < 8 + cfg.capacity.toNat) : r.frameByte cfg o = some ((Spec.frame r).getD o 0) := by
  match o with
  | 0 | 1 | 2 | 3 | 4 | 5 | 6 | 7 => rfl
  | i + 8 =>
    have hi : i < r.length.toNat := by omega
    obtain ⟨h, -⟩ | ⟨-, h⟩ := dataByte_cases cfg r i
    · omega
    · rw [frameByte_payload, h]
      show _ = some ((Spec.payload r).getD i 0)
      simp [Spec.payload, hi]

section
variable {s : State}

theorem raise_eq_nextState {i : Instr} {c : FaultCode} (h : Spec.faultCause i s = some c) :
    s.raise c = .next (nextState i s) := by
  rw [nextState_of_fault h]
  rfl

theorem reply_eq_nextState {i : Instr} {r : Regs} {st : Status} {v : Word} (h : Spec.faultCause i s = none)
    (hr : regsAfter i s.cfg s.regs = r) (hst : statusOf i s.cfg s.regs = st) (hv : valueOf i s.cfg s.regs = v)
    (hrecord : recordOf i s.regs = none) : s.reply r st v = .next (nextState i s) := by
  rw [nextState_of_no_fault h, hr, hst, hv, hrecord]
  rfl

theorem exec_checksum_eq (flag : Bool) : exec (.checksum flag) s = .next (nextState (.checksum flag) s) := by
  show execChecksum flag s = _
  obtain ⟨h, hw⟩ | ⟨h, hw⟩ := window_cases s.cfg s.regs
  · rw [execChecksum, hw]
    exact raise_eq_nextState (if_pos h)
  · rw [execChecksum, hw, windowBytes_eq_window]
    exact reply_eq_nextState (if_neg (Nat.not_lt.mpr h)) rfl rfl rfl rfl

theorem exec_validate_eq : exec .validate s = .next (nextState .validate s) := by
  show execValidate s = _
  obtain ⟨h, hw⟩ | ⟨h, hw⟩ := window_cases s.cfg s.regs
  · rw [execValidate, hw]
    exact raise_eq_nextState (if_pos h)
  · rw [execValidate, hw, windowBytes_eq_window]
    exact reply_eq_nextState (if_neg (Nat.not_lt.mpr h)) rfl rfl rfl rfl

theorem exec_pack_eq : exec .pack s = .next (nextState .pack s) := by
  show execPack s = _
  obtain ⟨h, hw⟩ | ⟨h, hw⟩ := window_cases s.cfg s.regs
  · rw [execPack, hw]
    exact raise_eq_nextState (if_pos h)
  · rw [execPack, hw]
    exact reply_eq_nextState (if_neg (Nat.not_lt.mpr h)) rfl rfl rfl rfl

theorem terminal_iff (st : Status) :
    st.terminal = true ↔ st ∈ [.packetReceived, .checksumError, .headerNotFound, .packetOverflow] := by
  simpa using terminalStatusesAreTheFour st

theorem exec_consumeByte_eq (b : Byte) : exec (.consumeByte b) s = .next (nextState (.consumeByte b) s) := by
  show execConsumeByte b s = _
  unfold execConsumeByte
  split
  next h => exact raise_eq_nextState (if_pos ⟨h.1, (terminal_iff _).mp h.2⟩)
  next h => exact reply_eq_nextState (if_neg fun h' => h ⟨h'.1, (terminal_iff _).mpr h'.2⟩) rfl rfl rfl rfl

theorem exec_nextByte_eq : exec .nextByte s = .next (nextState .nextByte s) := by
  show execNextByte s = _
  rw [execNextByte, frameLength_eq]
  by_cases hend : 8 + s.regs.length.toNat ≤ s.regs.cursor.toNat
  · rw [if_pos hend]
    exact reply_eq_nextState (if_neg fun h => Nat.not_lt.mpr hend h.1) (if_pos hend) (if_pos hend) (if_pos hend) rfl
  have hframe := Nat.not_le.mp hend
  rw [if_neg hend]
  by_cases hbuffer : 8 + s.cfg.capacity.toNat ≤ s.regs.cursor.toNat
  · rw [(frameByte_eq_none_iff ..).mpr hbuffer]
    exact raise_eq_nextState (if_pos ⟨hframe, hbuffer⟩)
  · rw [frameByte_eq_getD_frame hframe (Nat.not_le.mp hbuffer)]
    exact reply_eq_nextState (if_neg fun h => hbuffer h.2) (if_neg hend) (if_neg hend) (if_neg hend) rfl

theorem exec_frameByte_eq (index : BitVec 24) : exec (.frameByte index) s = .next (nextState (.frameByte index) s) := by
  show execFrameByte index s = _
  rw [execFrameByte, frameLength_eq]
  by_cases hend : 8 + s.regs.length.toNat ≤ index.toNat
  · rw [if_pos hend]
    exact raise_eq_nextState (if_pos hend)
  rw [if_neg hend]
  by_cases hbuffer : 8 + s.cfg.capacity.toNat ≤ index.toNat
  · rw [(frameByte_eq_none_iff ..).mpr hbuffer]
    exact raise_eq_nextState ((if_neg hend).trans (if_pos hbuffer))
  · rw [frameByte_eq_getD_frame (Nat.not_le.mp hend) (Nat.not_le.mp hbuffer)]
    exact reply_eq_nextState ((if_neg hend).trans (if_neg hbuffer)) rfl rfl rfl rfl

theorem exec_getDataByte_eq (index : Half) :
    exec (.getDataByte index) s = .next (nextState (.getDataByte index) s) := by
  show execGetDataByte index s = _
  obtain ⟨h, hb⟩ | ⟨h, hb⟩ := dataByte_cases s.cfg s.regs index.toNat
  · rw [execGetDataByte, hb]
    exact raise_eq_nextState (if_pos h)
  · rw [execGetDataByte, hb]
    exact reply_eq_nextState (if_neg (Nat.not_le.mpr h)) rfl rfl rfl rfl

theorem exec_setPayload_eq (bytes : List Byte) :
    exec (.setPayload bytes) s = .next (nextState (.setPayload bytes) s) := by
  by_cases h : Fits s.cfg s.regs bytes
  · rw [exec_setPayload_of_fits h]
    exact reply_eq_nextState rfl (if_pos h) (if_pos h) rfl rfl
  · rw [exec_setPayload_of_overflow (Nat.lt_of_not_le h)]
    exact reply_eq_nextState rfl (if_neg h) (if_neg h) rfl rfl

theorem exec_respondWithData_eq (request : Byte) (bytes : List Byte) :
    exec (.respondWithData request bytes) s = .next (nextState (.respondWithData request bytes) s) := by
  by_cases h : Fits s.cfg s.regs bytes
  · rw [exec_respondWithData_of_fits request h]
    exact reply_eq_nextState rfl (if_pos h) (if_pos h) rfl rfl
  · rw [exec_respondWithData_of_overflow request (Nat.lt_of_not_le h)]
    exact reply_eq_nextState rfl (if_neg h) (if_neg h) rfl rfl

theorem exec_respondWithIdentity_eq (ascii : Bool) (record : List Byte) :
    exec (.respondWithIdentity ascii record) s = .next (nextState (.respondWithIdentity ascii record) s) := by
  show execRespondWithIdentity ascii record s = _
  rw [execRespondWithIdentity]
  by_cases hraw : ascii = false
  · rw [if_pos hraw]
    exact raise_eq_nextState (if_pos hraw)
  by_cases hname : record.getD 29 0 ≠ 0
  · rw [if_neg hraw, if_pos hname]
    exact raise_eq_nextState ((if_neg hraw).trans (if_pos hname))
  have hcause : Spec.faultCause (.respondWithIdentity ascii record) s = none := (if_neg hraw).trans (if_neg hname)
  rw [if_neg hraw, if_neg hname]
  by_cases h : Fits s.cfg s.regs record
  · rw [append_of_fits h]
    exact reply_eq_nextState hcause (if_pos h) (if_pos h) rfl rfl
  · rw [append_of_overflow (Nat.lt_of_not_le h)]
    exact reply_eq_nextState hcause (if_neg h) (if_neg h) rfl rfl

theorem exec_dataidDecode_eq : exec .dataidDecode s = .next (nextState .dataidDecode s) := by
  show execDataidDecode s = _
  rw [execDataidDecode]
  by_cases hshort : s.regs.length.toNat < dataIdSize
  · rw [if_pos hshort]
    exact raise_eq_nextState (if_pos hshort)
  by_cases hcap : s.cfg.capacity.toNat < dataIdSize
  · rw [if_neg hshort, if_pos hcap]
    exact raise_eq_nextState ((if_neg hshort).trans (if_pos hcap))
  · have hrecord : s.regs.data.readRun 0 dataIdSize = (List.range 32).map s.regs.data.read := by
      simp [Memory.readRun_eq_map, dataIdSize]
    rw [if_neg hshort, if_neg hcap, hrecord,
      nextState_of_no_fault (i := .dataidDecode) ((if_neg hshort).trans (if_neg hcap))]
    rfl

end

/-- Every command has one outcome, a next state. -/
theorem exec_eq (i : Instr) (s : State) : exec i s = .next (nextState i s) := by
  cases i with
  | checksum flag => exact exec_checksum_eq flag
  | validate => exact exec_validate_eq
  | consumeByte b => exact exec_consumeByte_eq b
  | nextByte => exact exec_nextByte_eq
  | frameByte index => exact exec_frameByte_eq index
  | pack => exact exec_pack_eq
  | setPayload bytes => exact exec_setPayload_eq bytes
  | respondWithData request bytes => exact exec_respondWithData_eq request bytes
  | respondWithIdentity ascii record => exact exec_respondWithIdentity_eq ascii record
  | dataidDecode => exact exec_dataidDecode_eq
  | getDataByte index => exact exec_getDataByte_eq index
  | resetCursor | frameLength | respondWithError | setRequest | setResponse | getHeader | getChecksum | getRequest
  | getResponse | getDataLength | getStatus | getCapacity | resetLazy | resetFull => rfl

theorem exec_eq_next_iff {i : Instr} {s t : State} : exec i s = .next t ↔ t = nextState i s := by
  rw [exec_eq, Host.Outcome.next.injEq, eq_comm]

theorem exec_of_fault {i : Instr} {s : State} {c : FaultCode} (h : Spec.faultCause i s = some c) :
    exec i s = .next (Spec.faulted s c) := by
  rw [exec_eq, nextState_of_fault h]

theorem exec_of_no_fault {i : Instr} {s : State} (h : Spec.faultCause i s = none) :
    exec i s = .next { cfg := s.cfg, regs := regsAfter i s.cfg s.regs, pending := s.pending,
                       results := .status (statusOf i s.cfg s.regs) (valueOf i s.cfg s.regs) (recordOf i s.regs) ::
                         s.results } := by
  rw [exec_eq, nextState_of_no_fault h]

/-- The same for a command that returns no record, in the terms of the statements. -/
theorem exec_eq_after {i : Instr} {s : State} {r : Regs} {st : Status} {v : Word} (h : Spec.faultCause i s = none)
    (hr : regsAfter i s.cfg s.regs = r) (hst : statusOf i s.cfg s.regs = st) (hv : valueOf i s.cfg s.regs = v)
    (hrecord : recordOf i s.regs = none) : exec i s = .next (Spec.after s r st v) := by
  rw [exec_eq, ← reply_eq_nextState h hr hst hv hrecord]
  rfl

/-- Settles O44: the two arms of `exec_eq`. -/
theorem faultsExactlyForTheListedCauses : Obligations.FaultsExactlyForTheListedCauses :=
  fun _ _ => ⟨fun _ => exec_of_fault, fun h => ⟨_, _, _, _, exec_of_no_fault h⟩⟩

/-! ## What a command depends on -/

theorem faultCause_congr {i : Instr} {s s' : State} (hcfg : s'.cfg = s.cfg) (hregs : s'.regs = s.regs) :
    Spec.faultCause i s' = Spec.faultCause i s := by
  obtain ⟨cfg, r, _, _⟩ := s
  obtain ⟨_, _, _, _⟩ := s'
  cases hcfg
  cases hregs
  rfl

/-- Equal registers and parameters give equal registers and one equal result, pushed on what was returned before. -/
theorem nextState_congr {i : Instr} {s s' : State} (hcfg : s'.cfg = s.cfg) (hregs : s'.regs = s.regs) :
    (nextState i s').regs = (nextState i s).regs ∧
      ∃ res, (nextState i s).results = res :: s.results ∧ (nextState i s').results = res :: s'.results := by
  cases h : Spec.faultCause i s with
  | some c =>
    rw [nextState_of_fault h, nextState_of_fault ((faultCause_congr hcfg hregs).trans h)]
    exact ⟨hregs, _, rfl, rfl⟩
  | none =>
    rw [nextState_of_no_fault h, nextState_of_no_fault ((faultCause_congr hcfg hregs).trans h), hcfg, hregs]
    exact ⟨rfl, _, rfl, rfl⟩

@[simp] theorem nextState_cfg (i : Instr) (s : State) : (nextState i s).cfg = s.cfg := by
  unfold nextState
  split <;> rfl

/-- A command returns one result and removes none (R240). -/
theorem nextState_results (i : Instr) (s : State) : ∃ res, (nextState i s).results = res :: s.results := by
  obtain ⟨-, res, h, -⟩ := nextState_congr (i := i) (s := s) rfl rfl
  exact ⟨res, h⟩

/-- The bytes still to come change nothing else. -/
theorem nextState_with_pending (i : Instr) (s : State) (bytes : List Byte) :
    nextState i { s with pending := bytes } = { nextState i s with pending := bytes } := by
  cases h : Spec.faultCause i s with
  | some c => rw [nextState_of_fault (s := { s with pending := bytes }) h, nextState_of_fault h]; rfl
  | none => rw [nextState_of_no_fault (s := { s with pending := bytes }) h, nextState_of_no_fault h]

/-- A fault writes no register, so the registers after a command are the old ones or `regsAfter`. -/
theorem nextState_regs (i : Instr) (s : State) :
    (nextState i s).regs = s.regs ∨ (nextState i s).regs = regsAfter i s.cfg s.regs := by
  unfold nextState
  split
  · exact .inl rfl
  · exact .inr rfl

theorem run_cons_of_exec {i : Instr} {s t : State} (h : exec i s = .next t) (is : List Instr) :
    run (i :: is) s = run is t := by
  rw [run, h]

theorem run_cons (i : Instr) (is : List Instr) (s : State) : run (i :: is) s = run is (nextState i s) :=
  run_cons_of_exec (exec_eq i s) is

theorem run_append {is is' : List Instr} {s t : State} (h : run is s = .next t) : run (is ++ is') s = run is' t := by
  induction is generalizing s with
  | nil => cases h; rfl
  | cons i is ih =>
    rw [run_cons] at h
    rw [List.cons_append, run_cons, ih h]

/-- Settles O52: both states lead to equal registers and push one equal result (`nextState_congr`). -/
theorem commandsDependOnlyOnRegistersAndParameters : Obligations.CommandsDependOnlyOnRegistersAndParameters := by
  intro i s s' t hcfg hregs ht
  obtain rfl := exec_eq_next_iff.mp ht
  obtain ⟨hr, res, hres, hres'⟩ := nextState_congr (i := i) hcfg hregs
  exact ⟨_, exec_eq i s', hr, by rw [hres, hres']; rfl⟩

theorem regsAfter_of_sideEffectFree {i : Instr} (h : Spec.sideEffectFree i = true) (cfg : Config) (r : Regs) :
    regsAfter i cfg r = r := by
  cases i with
  | checksum flag =>
    cases flag with
    | false => rfl
    | true => cases h
  | frameByte | frameLength | getHeader | getChecksum | getRequest | getResponse | getDataLength | getDataByte
  | getStatus | getCapacity | dataidDecode => rfl
  | _ => cases h

theorem nextState_regs_of_sideEffectFree {i : Instr} (h : Spec.sideEffectFree i = true) (s : State) :
    (nextState i s).regs = s.regs :=
  (nextState_regs i s).elim id fun hr => hr.trans (regsAfter_of_sideEffectFree h _ _)

/-- Settles O51: such a command leaves the registers, on which alone its next result depends (`nextState_congr`). -/
theorem sideEffectFreeCommandsRepeat : Obligations.SideEffectFreeCommandsRepeat := by
  intro i s hi
  have hregs := nextState_regs_of_sideEffectFree hi s
  obtain ⟨-, res, hs, ht⟩ := nextState_congr (i := i) (nextState_cfg i s) hregs
  exact ⟨_, _, exec_eq i s, exec_eq i _, hregs, (nextState_regs_of_sideEffectFree hi _).trans hregs,
    by rw [hs, ht]; rfl⟩

/-! ## The result words -/

theorem recordOf_eq_some {i : Instr} {r : Regs} {record : List Byte} (h : recordOf i r = some record) :
    i = .dataidDecode ∧ record.length = 32 := by
  cases i with
  | dataidDecode =>
    cases h
    exact ⟨rfl, by simp⟩
  | _ => cases h

/-- The records a command adds to what was returned are DATAID_DECODE's. -/
theorem record_of_nextState {i : Instr} {s : State} {res : Result} {record : List Byte}
    (hres : (nextState i s).results = res :: s.results) (h : res.record? = some record) :
    i = .dataidDecode ∧ record.length = 32 := by
  cases hf : Spec.faultCause i s with
  | some c =>
    rw [nextState_of_fault hf] at hres
    cases hres
    cases h
  | none =>
    rw [nextState_of_no_fault hf] at hres
    cases hres
    exact recordOf_eq_some h

/-- Settles O53: the words of the finitely many codes are evaluated, and the records are those of
`record_of_nextState`. -/
theorem resultWordsCarryTheirFields : Obligations.ResultWordsCarryTheirFields := by
  refine ⟨fun st v record => ⟨?_, rfl⟩, fun c => ⟨?_, rfl, rfl⟩, by decide, by decide, ?_⟩
  · cases st <;> rfl
  · cases c <;> rfl
  · intro i s t res record ht hres hrecord
    obtain rfl := exec_eq_next_iff.mp ht
    exact record_of_nextState hres hrecord

end Sys2Proof.Proofs
end

section
/-!
The step and the host's stream: what a step does with each thing that can stand at the head of the stream
(00_scope.md R5, 60_exceptions.md R259, 70_reset_and_hazards.md R291).
-/
namespace Sys2Proof.Proofs
open Sys2Proof.Machine

section
variable {s : State} {rest : List Byte}

theorem step_of_command {i : Instr} (h : decode s.pending = .command i rest) : step s = exec i (s.taken rest) := by
  rw [step, State.fetch, h]

theorem step_of_illegal {why : DecodeError} (h : decode s.pending = .illegal why rest) :
    step s = .next (Spec.faulted { s with pending := rest } .illegalCommand) := by
  rw [step, State.fetch, h]
  exact raise_eq _ _

theorem step_of_incomplete (h : decode s.pending = .incomplete) : step s = .next s := by
  rw [step, State.fetch, h]
  rfl

end

/-- A run's first step. -/
theorem hostRun_succ {M : Host.Core} {s t : M.State} (h : M.step s = .next t) (k : Nat) :
    M.run (k + 1) s = M.run k t := by
  rw [Host.Core.run, h]

/-- A command with at least its last byte missing is not there yet, whether the word or the burst is cut. -/
theorem decode_of_cut {i : Instr} (hi : i.wellFormed = true) {bytes more : List Byte} (h : encode i = bytes ++ more)
    (hmore : more ≠ []) : decode bytes = .incomplete := by
  by_cases hshort : bytes.length < 4
  · exact decode_of_short_word hshort
  obtain ⟨w, part, rfl⟩ := exists_wordBytes (Nat.le_of_not_lt hshort)
  rw [encode, List.append_assoc] at h
  obtain ⟨hword, hburst⟩ := List.append_inj h rfl
  have hw : decodeWord w = .ok i.opcode := by
    rw [← wordBytes_injective hword]
    exact decodeWord_encodeWord i
  refine decode_of_short_burst hw ?_
  rw [← wordBytes_injective hword, burstLength_encodeWord hi, hburst, List.length_append]
  exact Nat.lt_add_of_pos_right (List.length_pos_iff.mpr hmore)

/-- Settles O4: an illegal word decodes to no row (`legal_iff`), and the bytes after it stay pending. -/
theorem illegalWordFaultsAndConsumesNoBurst : Obligations.IllegalWordFaultsAndConsumesNoBurst := by
  refine ⟨fun s w rest hpending hillegal => ?_, fun w => (legal_iff w).mp⟩
  obtain ⟨why, hwhy⟩ := exists_error_of_illegal hillegal
  exact step_of_illegal (by rw [hpending, decode_of_illegal hwhy])

/-- Settles O5: each word is one evaluation of the decoder. -/
theorem wordsOfTheSpecDecode : Obligations.WordsOfTheSpecDecode :=
  ⟨by decide, by decide, by decide, by decide, by decide, by decide, by decide⟩

/-- Settles O6: the step's command arm. -/
theorem stepRunsTheDecodedCommand : Obligations.StepRunsTheDecodedCommand := fun _ _ _ => step_of_command

/-- Settles O7: a cut command decodes to nothing (`decode_of_cut`), and then the step is idle. -/
theorem stepWaitsForAWholeCommand : Obligations.StepWaitsForAWholeCommand :=
  fun _ _ _ hi h hmore => step_of_incomplete (decode_of_cut hi h hmore)

/-- Settles O8, by induction on the commands: the first step decodes the first command (O1) and leaves the bytes of the
others. -/
theorem stepsRunTheHostsProgram : Obligations.StepsRunTheHostsProgram := by
  intro is
  induction is with
  | nil => exact fun s rest _ => rfl
  | cons i is ih =>
    intro s rest his
    obtain ⟨hi, his⟩ := List.forall_mem_cons.mp his
    have hstep : step { s with pending := (i :: is).flatMap encode ++ rest } =
        .next { nextState i s with pending := is.flatMap encode ++ rest } := by
      rw [step_of_command (i := i) (rest := is.flatMap encode ++ rest), exec_eq]
      · exact congrArg _ (nextState_with_pending i s _)
      · rw [List.flatMap_cons, List.append_assoc]
        exact decodeOfEncodeIsTheCommand i _ hi
    refine (hostRun_succ (M := core) hstep is.length).trans ((ih _ rest his).trans ?_)
    rw [run_cons, nextState_with_pending i s rest]

/-- Settles O50: a step is idle, faults with IllegalCommand or runs one command, which returns one result
(`nextState_results`). -/
theorem stepKeepsConfigurationAndRecord : Obligations.StepKeepsConfigurationAndRecord := by
  intro s
  have hrecord {t : State} (h : t = s ∨ ∃ res, t.results = res :: s.results) (hs : s.faultFree = false) :
      t.faultFree = false := by
    obtain rfl | ⟨res, h⟩ := h
    · exact hs
    · rw [State.faultFree] at hs
      rw [State.faultFree, h, List.all_cons, hs, Bool.and_false]
  cases h : decode s.pending with
  | incomplete => exact ⟨s, step_of_incomplete h, rfl, .inl rfl, hrecord (.inl rfl)⟩
  | illegal why rest =>
    exact ⟨_, step_of_illegal h, rfl, .inr ⟨_, rfl⟩, hrecord (.inr ⟨_, rfl⟩)⟩
  | command i rest =>
    have hres := nextState_results i (s.taken rest)
    exact ⟨_, (step_of_command h).trans (exec_eq i _), nextState_cfg i _, .inr hres, hrecord (.inr hres)⟩

end Sys2Proof.Proofs
end

section
/-!
Which registers a command writes (10_state.md R21 to R28), read off `regsAfter`.
-/
namespace Sys2Proof.Proofs
open Sys2Proof.Machine

section
variable {i : Instr} (cfg : Config) (r : Regs)

theorem regsAfter_header (h : Spec.writesHeader i = false) : (regsAfter i cfg r).header = r.header := by
  cases i with
  | pack | respondWithData | respondWithError | respondWithIdentity | consumeByte | resetLazy | resetFull => cases h
  | checksum | nextByte | setPayload => simp only [regsAfter]; split <;> rfl
  | _ => rfl

theorem regsAfter_checksum (h : Spec.writesChecksum i = false) : (regsAfter i cfg r).checksum = r.checksum := by
  cases i with
  | pack | respondWithData | respondWithError | respondWithIdentity | consumeByte | resetLazy | resetFull => cases h
  | checksum => cases h; rfl
  | nextByte | setPayload => simp only [regsAfter]; split <;> rfl
  | _ => rfl

theorem regsAfter_request (h : Spec.writesRequest i = false) : (regsAfter i cfg r).request = r.request := by
  cases i with
  | setRequest | respondWithData | respondWithError | consumeByte | resetLazy | resetFull => cases h
  | checksum | nextByte | setPayload | respondWithIdentity => simp only [regsAfter]; split <;> rfl
  | _ => rfl

theorem regsAfter_response (h : Spec.writesResponse i = false) : (regsAfter i cfg r).response = r.response := by
  cases i with
  | setResponse | respondWithData | respondWithError | consumeByte | resetLazy | resetFull => cases h
  | checksum | nextByte | setPayload | respondWithIdentity => simp only [regsAfter]; split <;> rfl
  | _ => rfl

theorem regsAfter_length (h : Spec.writesLength i = false) : (regsAfter i cfg r).length = r.length := by
  cases i with
  | setPayload | respondWithData | respondWithIdentity | respondWithError | consumeByte | resetLazy | resetFull =>
    cases h
  | checksum | nextByte => simp only [regsAfter]; split <;> rfl
  | _ => rfl

theorem regsAfter_data (h : Spec.writesData i = false) : (regsAfter i cfg r).data = r.data := by
  cases i with
  | setPayload | respondWithData | respondWithIdentity | consumeByte | resetFull => cases h
  | checksum | nextByte => simp only [regsAfter]; split <;> rfl
  | _ => rfl

theorem regsAfter_cursor (h : Spec.writesCursor i = false) : (regsAfter i cfg r).cursor = r.cursor := by
  cases i with
  | consumeByte | nextByte | resetCursor | resetLazy | resetFull => cases h
  | checksum | setPayload | respondWithData | respondWithIdentity => simp only [regsAfter]; split <;> rfl
  | _ => rfl

theorem regsAfter_dataCursor (h : Spec.writesDataCursor i = false) :
    (regsAfter i cfg r).dataCursor = r.dataCursor := by
  cases i with
  | consumeByte | resetLazy | resetFull => cases h
  | checksum | nextByte | setPayload | respondWithData | respondWithIdentity => simp only [regsAfter]; split <;> rfl
  | _ => rfl

end

/-- Settles O46: a fault writes nothing, and any other outcome leaves `regsAfter`. -/
theorem registersAreWrittenOnlyByTheirCommands : Obligations.RegistersAreWrittenOnlyByTheirCommands := by
  intro i s t ht
  obtain rfl := exec_eq_next_iff.mp ht
  obtain h | h := nextState_regs i s <;> rw [h]
  · exact ⟨fun _ => rfl, fun _ => rfl, fun _ => rfl, fun _ => rfl, fun _ => rfl, fun _ _ => rfl, fun _ => rfl,
      fun _ => rfl⟩
  · exact ⟨regsAfter_header _ _, regsAfter_checksum _ _, regsAfter_request _ _, regsAfter_response _ _,
      regsAfter_length _ _, fun hw a => by rw [regsAfter_data _ _ hw], regsAfter_cursor _ _, regsAfter_dataCursor _ _⟩

end Sys2Proof.Proofs
end

section
/-!
What CONSUME_BYTE can do to the registers, once for all cursors, and what it keeps (10_state.md R37).
-/
namespace Sys2Proof.Proofs
open Sys2Proof.Machine

/-- The fields that the first seven bytes of a frame write, one of them each: HEADER keeps a legal value, and LENGTH
changes at cursor 6 alone. -/
def HeadField (r r' : Regs) : Prop :=
  ∃ header checksum request response length,
    (headerLegal r.header = true → headerLegal header = true) ∧ (r.cursor.toNat ≠ 6 → length = r.length) ∧
      r' = { r with header := header, checksum := checksum, request := request, response := response, length := length }

/-- The second sync byte over any legal HEADER gives a legal one (10_state.md R21). -/
theorem headerLegal_setHigh {h : Half} (hh : headerLegal h = true) : headerLegal (setHigh h 0x55) = true := by
  have hmem : h ∈ [0x0000, 0x0055, 0x5500, sync] := of_decide_eq_true hh
  have hall : ([0x0000, 0x0055, 0x5500, sync] : List Half).all (headerLegal <| setHigh · 0x55) = true := by decide
  exact List.all_eq_true.mp hall h hmem

/-- The arms of the state machine (41_construction.md R121), by the cursor: a sync byte that does not match, a byte of
the head, the high byte of LENGTH, a payload byte stored, and a byte with no room. A frame completes only where the
payload is whole. -/
theorem consume_cases (cfg : Config) (r : Regs) (b : Byte) :
    (r.cursor.toNat ≤ 1 ∧ r.consume cfg b = r.headerNotFound) ∨
    (r.cursor.toNat ≤ 6 ∧ ∃ r', HeadField r r' ∧ r.consume cfg b = r'.building) ∨
    (r.cursor.toNat = 7 ∧ ∃ st, (st ≠ .packetBuilding → setHigh r.length b = 0) ∧ r.consume cfg b =
      { r with length := setHigh r.length b, dataCursor := 0, cursor := 8, status := st }) ∨
    (8 ≤ r.cursor.toNat ∧ r.mayStore cfg = true ∧ ∃ st, (st ≠ .packetBuilding → r.dataCursor + 1 = r.length) ∧
      r.consume cfg b =
      { r.storePayload b with cursor := r.cursor + 1, status := st }) ∨
    (8 ≤ r.cursor.toNat ∧ r.mayStore cfg = false ∧ r.consume cfg b = { r with status := .packetOverflow }) := by
  by_cases hpayload : 8 ≤ r.cursor.toNat
  · right; right; right
    rw [consume_of_payload cfg r b hpayload, Regs.consumePayload]
    cases hstore : r.mayStore cfg with
    | false => exact .inr ⟨hpayload, rfl, rfl⟩
    | true =>
      refine .inl ⟨hpayload, rfl, ?_⟩
      rw [if_pos rfl]
      split
      next hlast => exact ⟨_, fun _ => hlast, rfl⟩
      · exact ⟨_, absurd rfl, rfl⟩
  by_cases hlength : r.cursor.toNat = 7
  · right; right; left
    have hc : r.cursor = 7 := BitVec.eq_of_toNat_eq hlength
    refine ⟨hlength, ?_⟩
    rw [consume_lengthHigh hc]
    by_cases hn : setHigh r.length b = 0
    · exact ⟨_, fun _ => hn, by rw [consumeLengthHigh_of_eq_zero hc hn, hn]⟩
    · exact ⟨_, absurd rfl, consumeLengthHigh_of_ne_zero hc hn⟩
  by_cases hmismatch : r.cursor.toNat ≤ 1 ∧ b ≠ 0x55
  · exact .inl ⟨hmismatch.1, consume_sync_mismatch hmismatch.1 hmismatch.2⟩
  right; left
  refine ⟨by omega, ?_⟩
  unfold Regs.consume
  split
  next hc =>
    obtain rfl : b = 0x55 := not_not.mp fun hb => hmismatch ⟨by omega, hb⟩
    exact ⟨_, ⟨_, _, _, _, _, fun _ => by decide, fun _ => rfl, rfl⟩, if_neg (by decide)⟩
  next hc =>
    obtain rfl : b = 0x55 := not_not.mp fun hb => hmismatch ⟨by omega, hb⟩
    exact ⟨_, ⟨_, _, _, _, _, headerLegal_setHigh, fun _ => rfl, rfl⟩, if_neg (by decide)⟩
  next => exact ⟨_, ⟨_, _, _, _, _, id, fun _ => rfl, rfl⟩, rfl⟩
  next => exact ⟨_, ⟨_, _, _, _, _, id, fun _ => rfl, rfl⟩, rfl⟩
  next => exact ⟨_, ⟨_, _, _, _, _, id, fun _ => rfl, rfl⟩, rfl⟩
  next => exact ⟨_, ⟨_, _, _, _, _, id, fun _ => rfl, rfl⟩, rfl⟩
  next hc => exact ⟨_, ⟨_, _, _, _, _, id, fun h => absurd hc h, rfl⟩, rfl⟩
  next hc => exact absurd hc hlength
  next hc => omega

theorem toNat_cursor_add_one {c : Word} (h : c.toNat ≤ 65543) : (c + 1).toNat = c.toNat + 1 := by
  rw [BitVec.toNat_add]
  exact Nat.mod_eq_of_lt (by simp; omega)

theorem toNat_dataCursor_add_one {d n : Half} (h : d.toNat < n.toNat) : (d + 1).toNat = d.toNat + 1 := by
  have hn := n.isLt
  rw [BitVec.toNat_add]
  exact Nat.mod_eq_of_lt (by simp; omega)

/-- Before cursor 8 only the bound on CURSOR speaks, the high byte of LENGTH starts DATA_CURSOR at 0, and a stored byte
moves both cursors by one within the store condition. -/
theorem constructionInv_consume {s t : State} {b : Byte} (hs : s.ConstructionInv) (hcfg : t.cfg = s.cfg)
    (hregs : t.regs = s.regs.consume s.cfg b) : t.ConstructionInv := by
  obtain ⟨_, r, pending, results⟩ := s
  obtain ⟨cfg, _, pending', results'⟩ := t
  dsimp only at hcfg hregs
  subst hcfg hregs
  obtain ⟨hcursor, hdataCursor, hinLength, hinBuffer⟩ := hs
  have hcap := cfg.capacity.isLt
  simp only [headerSize] at hcursor hdataCursor hinLength hinBuffer
  have hnext : (r.cursor + 1).toNat = r.cursor.toNat + 1 := toNat_cursor_add_one (by omega)
  obtain ⟨hc, hr⟩ | ⟨hc, r', ⟨_, _, _, _, _, -, -, rfl⟩, hr⟩ | ⟨hc, st, -, hr⟩ | ⟨hc, hstore, st, -, hr⟩ |
      ⟨hc, -, hr⟩ := consume_cases cfg r b
  case inl => exact ⟨by simp [hr], by simp [hr, headerSize], by simp [hr, headerSize], by simp [hr, headerSize]⟩
  case inr.inl =>
    have hlow : (r.cursor + 1).toNat < 8 := by omega
    constructor
    all_goals simp only [hr, Regs.building_cursor, headerSize]
    all_goals omega
  case inr.inr.inl => exact ⟨by simp [hr, headerSize], by simp [hr, headerSize], by simp [hr], by simp [hr]⟩
  case inr.inr.inr.inl =>
    obtain ⟨hroom, hlength, hbuffer⟩ := (mayStore_iff cfg r).mp hstore
    have hdata : (r.dataCursor + 1).toNat = r.dataCursor.toNat + 1 := toNat_dataCursor_add_one hlength
    constructor
    all_goals
      simp only [hr, Regs.storePayload_dataCursor, Regs.storePayload_length, hnext, hdata, headerSize] at hroom ⊢
    all_goals omega
  case inr.inr.inr.inr =>
    constructor
    all_goals simp only [hr, headerSize]
    all_goals assumption

/-- Settles O26: a fault keeps the registers, and an accepted byte the invariant (`constructionInv_consume`). -/
theorem consumeByteKeepsTheConstructionInvariant : Obligations.ConsumeByteKeepsTheConstructionInvariant := by
  refine ⟨fun cfg => ⟨Nat.zero_le _, by simp [Regs.reset, headerSize], by simp [Regs.reset], by simp [Regs.reset]⟩, ?_⟩
  intro s t b hs ht
  obtain rfl := exec_eq_next_iff.mp ht
  have hcfg := nextState_cfg (.consumeByte b) s
  obtain h | h := nextState_regs (.consumeByte b) s
  · obtain ⟨hcursor, hdataCursor, hinLength, hinBuffer⟩ := hs
    exact ⟨by rwa [h, hcfg], by rwa [h], by rwa [h], by rwa [h, hcfg]⟩
  · exact constructionInv_consume hs hcfg h

end Sys2Proof.Proofs
end

section
/-!
The machine's invariant (10_state.md R21, R25, R26, R28, R37), kept by what each command does to the registers.
-/
namespace Sys2Proof.Proofs
open Sys2Proof.Machine

/-- The part of `State.Inv` that speaks of the registers. -/
structure RegsInv (cfg : Config) (r : Regs) : Prop where
  dataWf : r.data.wf
  dataInBuffer : ∀ c ∈ r.data, c.1 < cfg.capacity.toNat
  header : headerLegal r.header = true
  cursor : r.cursor.toNat ≤ 65543
  dataCursor : r.dataCursor.toNat ≤ cfg.capacity.toNat

/-- The part of `State.Inv` that speaks of the results returned. -/
def RecordsInv (results : List Result) : Prop :=
  ∀ res ∈ results, ∀ record, res.record? = some record → record.length = dataIdSize

theorem inv_iff (s : State) : s.Inv ↔ RegsInv s.cfg s.regs ∧ RecordsInv s.results :=
  ⟨fun ⟨hwf, hin, hheader, hcursor, hdataCursor, hrecords⟩ => ⟨⟨hwf, hin, hheader, hcursor, hdataCursor⟩, hrecords⟩,
    fun ⟨⟨hwf, hin, hheader, hcursor, hdataCursor⟩, hrecords⟩ => ⟨hwf, hin, hheader, hcursor, hdataCursor, hrecords⟩⟩

theorem headerLegal_sync : headerLegal sync = true := by decide

theorem headerLegal_zero : headerLegal 0 = true := by decide

theorem regsInv_reset (cfg : Config) : RegsInv cfg Regs.reset :=
  ⟨Memory.wf_nil, by simp [Regs.reset], headerLegal_zero, Nat.zero_le _, Nat.zero_le _⟩

section
variable {cfg : Config} {r r' : Regs}

/-- The other five registers do not matter to it. -/
theorem RegsInv.congr (h : RegsInv cfg r) (hdata : r'.data = r.data) (hheader : r'.header = r.header)
    (hcursor : r'.cursor = r.cursor) (hdataCursor : r'.dataCursor = r.dataCursor) : RegsInv cfg r' :=
  ⟨hdata ▸ h.dataWf, hdata ▸ h.dataInBuffer, hheader ▸ h.header, hcursor ▸ h.cursor, hdataCursor ▸ h.dataCursor⟩

theorem RegsInv.withCursor (h : RegsInv cfg r) {c : Word} (hc : c.toNat ≤ 65543) (st : Status) :
    RegsInv cfg { r with cursor := c, status := st } :=
  ⟨h.dataWf, h.dataInBuffer, h.header, hc, h.dataCursor⟩

theorem RegsInv.stamp (h : RegsInv cfg r) : RegsInv cfg r.stamp :=
  ⟨h.dataWf, h.dataInBuffer, headerLegal_sync, h.cursor, h.dataCursor⟩

theorem RegsInv.append (h : RegsInv cfg r) {bytes : List Byte} (hfits : Fits cfg r bytes) :
    RegsInv cfg (appended r bytes) :=
  ⟨Memory.wf_writeRun h.dataWf _ _, Memory.bound_writeRun h.dataInBuffer hfits, h.header, h.cursor, h.dataCursor⟩

/-- A byte stored at DATA_CURSOR, inside the buffer. -/
theorem RegsInv.storePayload (h : RegsInv cfg r) (b : Byte) (hroom : r.dataCursor.toNat < cfg.capacity.toNat) :
    RegsInv cfg (r.storePayload b) where
  dataWf := Memory.wf_write h.dataWf _ _
  dataInBuffer c hc := by
    obtain hc | ⟨rfl, -⟩ := Memory.mem_write hc
    · exact h.dataInBuffer c hc
    · exact hroom
  header := h.header
  cursor := h.cursor
  dataCursor := by
    rw [Regs.storePayload_dataCursor, toNat_dataCursor_add_one hroom]
    exact hroom

theorem RegsInv.consume (h : RegsInv cfg r) (b : Byte) : RegsInv cfg (r.consume cfg b) := by
  have hcap := cfg.capacity.isLt
  have hnext : (r.cursor + 1).toNat = r.cursor.toNat + 1 := toNat_cursor_add_one h.cursor
  obtain ⟨-, hr⟩ | ⟨hc, r', ⟨header, _, _, _, _, hheader, -, rfl⟩, hr⟩ | ⟨-, st, -, hr⟩ | ⟨-, hstore, st, -, hr⟩ |
      ⟨-, -, hr⟩ := consume_cases cfg r b
  all_goals rw [hr]
  · exact h.withCursor (by simp) _
  · exact ⟨h.dataWf, h.dataInBuffer, hheader h.header, hnext.trans_le (by omega), h.dataCursor⟩
  · exact ⟨h.dataWf, h.dataInBuffer, h.header, by simp, Nat.zero_le _⟩
  · obtain ⟨hcursor, -, hroom⟩ := (mayStore_iff cfg r).mp hstore
    simp only [headerSize] at hcursor
    exact (h.storePayload b hroom).withCursor (by omega) st
  · exact h.congr rfl rfl rfl rfl

theorem RegsInv.after (h : RegsInv cfg r) (i : Instr) : RegsInv cfg (regsAfter i cfg r) := by
  cases i with
  | consumeByte b => exact h.consume b
  | nextByte =>
    simp only [regsAfter]
    split
    · exact h.congr rfl rfl rfl rfl
    next hend =>
      have hlength := r.length.isLt
      exact h.withCursor (by rw [toNat_cursor_add_one h.cursor]; omega) _
  | resetCursor => exact h.withCursor (c := 0) (Nat.zero_le _) r.status
  | pack => exact h.stamp
  | setPayload bytes =>
    simp only [regsAfter]
    split
    next hfits => exact h.append hfits
    · exact h
  | respondWithData request bytes =>
    simp only [regsAfter]
    split
    next hfits => exact RegsInv.stamp (RegsInv.congr (h.append hfits) rfl rfl rfl rfl)
    · exact h.congr rfl rfl rfl rfl
  | respondWithError request code =>
    exact RegsInv.stamp (r := { r with request := request, response := code, length := 0 }) (h.congr rfl rfl rfl rfl)
  | respondWithIdentity ascii record =>
    simp only [regsAfter]
    split
    next hfits => exact (h.append hfits).stamp
    · exact h
  | resetLazy => exact ⟨h.dataWf, h.dataInBuffer, headerLegal_zero, Nat.zero_le _, Nat.zero_le _⟩
  | resetFull => exact regsInv_reset cfg
  | checksum =>
    exact h.congr (regsAfter_data _ _ rfl) (regsAfter_header _ _ rfl) (regsAfter_cursor _ _ rfl)
      (regsAfter_dataCursor _ _ rfl)
  | _ => exact h.congr rfl rfl rfl rfl

end

/-- A command keeps the invariant: it keeps the registers or leaves `regsAfter`, and the record it may return is
DATAID_DECODE's (`record_of_nextState`). -/
theorem inv_nextState {s : State} (h : s.Inv) (i : Instr) : (nextState i s).Inv := by
  obtain ⟨hregs, hrecords⟩ := (inv_iff s).mp h
  refine (inv_iff _).mpr ⟨?_, ?_⟩
  · rw [nextState_cfg]
    obtain hr | hr := nextState_regs i s
    · rwa [hr]
    · rw [hr]
      exact hregs.after i
  · obtain ⟨res, hres⟩ := nextState_results i s
    rw [hres]
    exact List.forall_mem_cons.mpr ⟨fun record hrecord => (record_of_nextState hres hrecord).2, hrecords⟩

/-- Settles O48: the step is idle, faults and so writes no register, or runs one command (`inv_nextState`). -/
theorem everyStepKeepsTheInvariant : Obligations.EveryStepKeepsTheInvariant := by
  intro s t hs ht
  have htaken (rest : List Byte) : (s.taken rest).Inv := (inv_iff _).mpr ((inv_iff s).mp hs)
  cases h : decode s.pending with
  | incomplete =>
    rw [step_of_incomplete h] at ht
    cases ht
    exact hs
  | illegal why rest =>
    rw [step_of_illegal h] at ht
    cases ht
    obtain ⟨hregs, hrecords⟩ := (inv_iff s).mp hs
    exact (inv_iff _).mpr ⟨hregs, List.forall_mem_cons.mpr ⟨fun _ hrecord => (by cases hrecord), hrecords⟩⟩
  | command i rest =>
    rw [step_of_command h] at ht
    obtain rfl := exec_eq_next_iff.mp ht
    exact inv_nextState (htaken rest) i

theorem inv_init (cfg : Config) : (State.init cfg).Inv :=
  (inv_iff _).mpr ⟨regsInv_reset cfg, by intro res hres; cases hres⟩

/-- Settles O49: the registers of a new engine meet the invariant (`regsInv_reset`), and it has returned nothing. -/
theorem creationHasTheInvariant : Obligations.CreationHasTheInvariant := ⟨inv_init, inv_init _⟩

/-- Settles O9: every register is written out in `Regs.reset`, and RESET_FULL leaves exactly it. -/
theorem creationStateIsZeroedAndEqualsResetFull : Obligations.CreationStateIsZeroedAndEqualsResetFull := by
  refine ⟨fun cfg => ⟨rfl, rfl, rfl, rfl, rfl, rfl, fun i _ => Memory.read_nil i, rfl, rfl, rfl, rfl⟩, ?_, rfl⟩
  intro s t ht
  rw [exec_resetFull] at ht
  cases ht
  rfl

/-- Settles O43: GET_DATA_BYTE's one cause of a fault is an index past the buffer. -/
theorem getDataByteReadsTheWholeBuffer : Obligations.GetDataByteReadsTheWholeBuffer := by
  intro s index
  exact ⟨word_eq_or 0x57 0 index, exec_getDataByte_of_lt, fun h => exec_of_fault (if_pos h)⟩

/-- LENGTH stays inside the buffer except where a received value is stored (10_state.md R25). -/
theorem regsAfter_length_le {i : Instr} {cfg : Config} {r : Regs} (h : r.length.toNat ≤ cfg.capacity.toNat)
    (hi : ∀ b, i = .consumeByte b → r.cursor.toNat ≠ 6 ∧ r.cursor.toNat ≠ 7) :
    (regsAfter i cfg r).length.toNat ≤ cfg.capacity.toNat := by
  have happended {bytes : List Byte} (hfits : Fits cfg r bytes) :
      (appended r bytes).length.toNat ≤ cfg.capacity.toNat := by
    rwa [appended_length_toNat cfg hfits]
  cases i with
  | consumeByte b =>
    obtain ⟨h6, h7⟩ := hi b rfl
    suffices hlength : (r.consume cfg b).length = r.length by
      show (r.consume cfg b).length.toNat ≤ _
      rwa [hlength]
    obtain ⟨-, hr⟩ | ⟨-, r', ⟨_, _, _, _, _, -, hlength, rfl⟩, hr⟩ | ⟨hc, -⟩ | ⟨-, -, st, -, hr⟩ | ⟨-, -, hr⟩ :=
      consume_cases cfg r b
    case inr.inr.inl => exact absurd hc h7
    case inr.inl => rw [hr]; exact hlength h6
    all_goals simp [hr]
  | setPayload | respondWithData | respondWithIdentity =>
    simp only [regsAfter]
    split
    next hfits => exact happended hfits
    · exact h
  | respondWithError | resetLazy | resetFull => exact Nat.zero_le _
  | _ =>
    rw [regsAfter_length cfg r rfl]
    exact h

/-- Settles O47: a fault keeps LENGTH, any other outcome leaves it inside the buffer (`regsAfter_length_le`). -/
theorem lengthStaysWithinCapacity : Obligations.LengthStaysWithinCapacity := by
  intro i s t hs ht hi
  obtain rfl := exec_eq_next_iff.mp ht
  rw [nextState_cfg]
  obtain h | h := nextState_regs i s <;> rw [h]
  · exact hs
  · exact regsAfter_length_le hs hi

end Sys2Proof.Proofs
end

section
/-!
The CRC as the spec writes it, and that it tells any two byte strings apart that differ in one byte
(40_checksum.md R102, R103, R105, R107).
-/
namespace Sys2Proof.Proofs
open Sys2Proof.Machine

/-- R103's construction gives the 256 entries it lists. -/
theorem crcTable_eq_listing : ∀ i : Byte, crcTable i = Spec.crcListing.getD i.toNat 0 := by decide +kernel

theorem toNat_lowByte (h : Half) : (lowByte h).toNat = (h &&& 0x00FF).toNat := by
  rw [lowByte, BitVec.extractLsb'_toNat, BitVec.toNat_and]
  exact (Nat.and_two_pow_sub_one_eq_mod h.toNat 8).symm

/-- Settles O13: the loop bodies are equal, the table entry by `crcTable_eq_listing`. -/
theorem crcIsTheLoopOverTheListedTable : Obligations.CrcIsTheLoopOverTheListedTable := by
  refine ⟨by decide +kernel, fun bytes => congrArg (List.foldl · 0 bytes) (funext₂ fun crc b => ?_)⟩
  rw [crcUpdate, crcTable_eq_listing, toNat_lowByte]

/-- Settles O14: the loop bodies are equal (`crcUpdate_eq_crcShift8`). -/
theorem crcEqualsTheBitwiseLoop : Obligations.CrcEqualsTheBitwiseLoop :=
  fun bytes => congrArg (List.foldl · 0 bytes) (funext₂ crcUpdate_eq_crcShift8)

theorem crc16_append_cons (before after : List Byte) (b : Byte) :
    crc16 (before ++ b :: after) = after.foldl crcUpdate (crcUpdate (crc16 before) b) := by
  rw [crc16, List.foldl_append, List.foldl_cons, crc16]

/-- Settles O15: the byte is the first difference, and neither its update nor the bytes after it lose it. -/
theorem oneChangedByteChangesTheCrc : Obligations.OneChangedByteChangesTheCrc := by
  intro before after b b' hb h
  rw [crc16_append_cons, crc16_append_cons] at h
  exact hb (crcUpdate_injective_byte _ (foldl_crcUpdate_injective after h))

/-- One byte replaced by another changes the CRC. -/
theorem crc16_set_ne {bytes : List Byte} {k : Nat} {b : Byte} (hk : k < bytes.length) (hb : b ≠ bytes[k]) :
    crc16 (bytes.set k b) ≠ crc16 bytes := by
  rw [List.set_eq_take_append_cons_drop, if_pos hk]
  conv_rhs => rw [← List.take_append_drop k bytes, List.drop_eq_getElem_cons hk]
  exact oneChangedByteChangesTheCrc _ _ _ _ hb

end Sys2Proof.Proofs
end

section
/-!
CHECKSUM and VALIDATE (40_checksum.md R104, R106, R107).
-/
namespace Sys2Proof.Proofs
open Sys2Proof.Machine

/-- Settles O17: CHECKSUM's one cause of a fault is a window past the buffer. -/
theorem checksumReturnsAndStoresTheCrc : Obligations.ChecksumReturnsAndStoresTheCrc := by
  refine ⟨by decide, by decide, fun s => ⟨fun h => ?_, fun h flag => exec_of_fault (if_pos h)⟩⟩
  exact ⟨exec_of_no_fault (if_neg (Nat.not_lt.mpr h)), exec_of_no_fault (if_neg (Nat.not_lt.mpr h))⟩

section
variable {s : State} (h : s.regs.length.toNat ≤ s.cfg.capacity.toNat)
include h

theorem exec_validate_of_eq (hcrc : s.regs.checksum = crc16 (Spec.window s.regs)) :
    exec .validate s = .next (Spec.after s { s.regs with status := .packetReceived } .packetReceived 0) := by
  have hverdict : Spec.verdict (crc16 (Spec.window s.regs)) s.regs.checksum = .packetReceived := if_pos hcrc.symm
  rw [exec_of_no_fault (i := .validate) (if_neg (Nat.not_lt.mpr h)), regsAfter, statusOf, hverdict]
  rfl

theorem exec_validate_of_ne (hcrc : s.regs.checksum ≠ crc16 (Spec.window s.regs)) :
    exec .validate s = .next (Spec.after s { s.regs with status := .checksumError } .checksumError 0) := by
  have hverdict : Spec.verdict (crc16 (Spec.window s.regs)) s.regs.checksum = .checksumError := if_neg hcrc.symm
  rw [exec_of_no_fault (i := .validate) (if_neg (Nat.not_lt.mpr h)), regsAfter, statusOf, hverdict]
  rfl

end

/-- Settles O18: by whether the window is in the buffer and whether its CRC is CHECKSUM. -/
theorem validateComparesTheCrc : Obligations.ValidateComparesTheCrc :=
  ⟨by decide, fun _ => ⟨exec_validate_of_eq, exec_validate_of_ne, fun h => exec_of_fault (if_pos h)⟩⟩

@[simp] theorem payload_length (r : Regs) : (Spec.payload r).length = r.length.toNat := by simp [Spec.payload]

@[simp] theorem window_length (r : Regs) : (Spec.window r).length = 4 + r.length.toNat := by
  rw [Spec.window, List.length_append, payload_length]
  rfl

/-- A payload byte written is that byte of the window replaced. -/
theorem window_write {r : Regs} (hwf : r.data.wf) (i : Nat) (b : Byte) :
    Spec.window { r with data := r.data.write i b } = (Spec.window r).set (i + 4) b := by
  have hpayload : Spec.payload { r with data := r.data.write i b } = (Spec.payload r).set i b := by
    apply List.ext_getElem
    · simp
    · intro k hk _
      simp only [Spec.payload, List.getElem_map, List.getElem_range, List.getElem_set, Memory.read_write hwf, eq_comm]
  rw [Spec.window, hpayload]
  rfl

theorem getElem_window {r : Regs} {i : Nat} (hi : i < r.length.toNat) :
    (Spec.window r)[i + 4]'(by simp; omega) = r.data.read i := by
  simp [Spec.window, Spec.payload]

/-- Settles O16: the packed packet's CRC is CHECKSUM; a changed byte of the window changes the CRC (`crc16_set_ne`) and
a changed CHECKSUM the other side, so the two differ. -/
theorem validateReportsOneCorruptedByte : Obligations.ValidateReportsOneCorruptedByte := by
  rintro s hwf ⟨hlength, -, hcrc⟩
  refine ⟨exec_validate_of_eq hlength hcrc, ?_, ?_, ?_, ?_⟩
  · rintro i b _ hi hb rfl
    refine exec_validate_of_ne (s := { s with regs := _ }) hlength fun h => ?_
    have hset := crc16_set_ne (k := i + 4) (bytes := Spec.window s.regs) (by simp; omega) (getElem_window hi ▸ hb)
    rw [window_write hwf] at h
    exact hset (h.symm.trans hcrc)
  · rintro v _ hv rfl
    refine exec_validate_of_ne (s := { s with regs := _ }) hlength fun h => ?_
    exact crc16_set_ne (k := 0) (bytes := Spec.window s.regs) (by simp) hv (h.symm.trans hcrc)
  · rintro v _ hv rfl
    refine exec_validate_of_ne (s := { s with regs := _ }) hlength fun h => ?_
    exact crc16_set_ne (k := 1) (bytes := Spec.window s.regs) (by simp; omega) hv (h.symm.trans hcrc)
  · rintro v _ hv rfl
    exact exec_validate_of_ne (s := { s with regs := _ }) hlength fun h => hv (h.trans hcrc.symm)

end Sys2Proof.Proofs
end

section
/-!
Construction: the payload bytes, the overflow, and the byte after a completed frame (41_construction.md R126 to R131).
-/
namespace Sys2Proof.Proofs
open Sys2Proof.Machine

section
variable {cfg : Config} {r : Regs} {b : Byte}

/-- A payload byte that can be stored, and the verdict when it is the last (R126, R128). -/
theorem consume_of_mayStore (hc : 8 ≤ r.cursor.toNat) (h : r.mayStore cfg = true) :
    r.consume cfg b = { r.storePayload b with
      cursor := r.cursor + 1
      status := if r.dataCursor.toNat + 1 = r.length.toNat then
        Spec.verdict (crc16 (Spec.window (r.storePayload b))) r.checksum else .packetBuilding } := by
  obtain ⟨-, hlength, -⟩ := (mayStore_iff cfg r).mp h
  have hlast : r.dataCursor + 1 = r.length ↔ r.dataCursor.toNat + 1 = r.length.toNat := by
    rw [← BitVec.toNat_inj, toNat_dataCursor_add_one hlength]
  rw [consume_of_payload cfg r b hc, Regs.consumePayload, if_pos h]
  split
  next hl => rw [if_pos (hlast.mp hl), Regs.complete, windowBytes_eq_window]; rfl
  next hl => rw [if_neg (mt hlast.mpr hl)]; rfl

theorem consume_of_not_mayStore (hc : 8 ≤ r.cursor.toNat) (h : r.mayStore cfg = false) :
    r.consume cfg b = { r with status := .packetOverflow } := by
  rw [consume_of_payload cfg r b hc, Regs.consumePayload, h]
  rfl

theorem mayStore_eq_false (h : 8 + cfg.capacity.toNat ≤ r.cursor.toNat ∨ r.length.toNat ≤ r.dataCursor.toNat ∨
    cfg.capacity.toNat ≤ r.dataCursor.toNat) : r.mayStore cfg = false := by
  rw [← Bool.not_eq_true, mayStore_iff, headerSize]
  omega

end

/-- Settles O22: the arm of `consume_of_mayStore`; neither cursor wraps inside the store condition. -/
theorem payloadByteIsStoredAndLastByteValidates : Obligations.PayloadByteIsStoredAndLastByteValidates := by
  intro s b hs hwf hc hroom hlength hbuffer
  have hcap := s.cfg.capacity.isLt
  have hstore : s.regs.mayStore s.cfg = true := (mayStore_iff ..).mpr ⟨hroom, hlength, hbuffer⟩
  exact ⟨_, _, exec_consumeByte_of_accepts hs (consume_of_mayStore hc hstore), rfl,
    toNat_dataCursor_add_one hlength, toNat_cursor_add_one (by omega), Memory.read_write hwf _ b, rfl⟩

/-- Settles O23: no room for the byte now, nor for the next, since only STATUS has changed. -/
theorem overflowWritesOnlyStatus : Obligations.OverflowWritesOnlyStatus := by
  intro s b hs hc hover
  have hstore := mayStore_eq_false hover
  refine ⟨_, exec_consumeByte_of_accepts hs (consume_of_not_mayStore hc hstore), rfl, fun hrules b' => ?_⟩
  exact exec_consumeByte_of_accepts (.inl hrules) (consume_of_not_mayStore hc hstore)

/-! ## After a completed frame -/

/-- A byte that completes a frame leaves the cursors past its payload. -/
theorem consume_completed {cfg : Config} {r r' : Regs} {b : Byte} (hr : r.consume cfg b = r')
    (hst : r'.status = .packetReceived ∨ r'.status = .checksumError) :
    8 ≤ r'.cursor.toNat ∧ r'.length.toNat ≤ r'.dataCursor.toNat := by
  have hcap := cfg.capacity.isLt
  subst hr
  obtain ⟨-, hr⟩ | ⟨-, r', -, hr⟩ | ⟨-, st, hwhole, hr⟩ | ⟨hc, hstore, st, hwhole, hr⟩ | ⟨-, -, hr⟩ :=
    consume_cases cfg r b
  all_goals rw [hr] at hst ⊢
  · simp at hst
  · simp at hst
  · have hzero : setHigh r.length b = 0 := hwhole (by rintro rfl; simp at hst)
    simp [hzero]
  · have hlast : r.dataCursor + 1 = r.length := hwhole (by rintro rfl; simp at hst)
    obtain ⟨hroom, -, -⟩ := (mayStore_iff cfg r).mp hstore
    simp only [headerSize] at hroom
    exact ⟨by rw [toNat_cursor_add_one (by omega)]; omega, le_of_eq (congrArg BitVec.toNat hlast.symm)⟩
  · simp at hst

/-- In FAULT mode a terminal STATUS refuses every byte (R131). -/
theorem exec_consumeByte_of_terminal {s : State} (hmode : s.cfg.postTerminalMode = .fault)
    (hst : s.regs.status = .packetReceived ∨ s.regs.status = .checksumError) (b : Byte) :
    exec (.consumeByte b) s = .next (Spec.faulted s .consumeAfterTerminal) := by
  refine exec_of_fault (if_pos ⟨hmode, ?_⟩)
  obtain h | h := hst <;> simp [h]

/-- A reset engine takes a sync byte in both modes. -/
theorem exec_consumeByte_of_reset {s : State} (hc : s.regs.cursor = 0) (hst : s.regs.status = .ok) :
    ∃ t, exec (.consumeByte 0x55) s = .next t ∧ t.regs.status = .packetBuilding :=
  ⟨_, exec_consumeByte_of_accepts (.inr (by simp [hst])) (consume_headerLow hc), rfl⟩

/-- The registers after a CONSUME_BYTE that did not fault. -/
theorem consumed_of_head_ne {s t : State} {b : Byte} (ht : exec (.consumeByte b) s = .next t)
    (hhead : t.results.head? ≠ some (.fault .consumeAfterTerminal)) :
    t.cfg = s.cfg ∧ s.regs.consume s.cfg b = t.regs := by
  obtain rfl := exec_eq_next_iff.mp ht
  refine ⟨nextState_cfg _ _, ?_⟩
  by_cases h : s.cfg.postTerminalMode = .fault ∧
      s.regs.status ∈ [.packetReceived, .checksumError, .headerNotFound, .packetOverflow]
  · rw [nextState_of_fault (i := .consumeByte b) (if_pos h)] at hhead
    exact absurd rfl hhead
  · rw [nextState_of_no_fault (i := .consumeByte b) (if_neg h)]
    rfl

/-- Settles O24: the cursors stand past the payload (`consume_completed`), so there is no room for the byte; in FAULT
mode STATUS alone decides, and only the resets write it. -/
theorem byteAfterACompletedFrame : Obligations.ByteAfterACompletedFrame := by
  intro s t b b' ht hhead hst
  obtain ⟨hcfg, hr⟩ := consumed_of_head_ne ht hhead
  obtain ⟨hc, hwhole⟩ := consume_completed hr hst
  rw [← hcfg]
  refine ⟨fun hrules => ?_, fun hmode => ⟨exec_consumeByte_of_terminal hmode hst b', fun u hu => ?_, fun u hu => ?_⟩⟩
  · have hstore := mayStore_eq_false (cfg := t.cfg) (.inr (.inl hwhole))
    exact exec_consumeByte_of_accepts (.inl hrules) (consume_of_not_mayStore hc hstore)
  · rw [exec_resetCursor, reply_eq] at hu
    cases hu
    refine exec_consumeByte_of_terminal ?_ ?_ b'
    · exact hmode
    · exact hst
  · obtain hu | hu := hu
    · rw [exec_resetLazy] at hu
      cases hu
      exact exec_consumeByte_of_reset rfl rfl
    · rw [exec_resetFull] at hu
      cases hu
      exact exec_consumeByte_of_reset rfl rfl

end Sys2Proof.Proofs
end

section
/-!
A whole frame through CONSUME_BYTE (41_construction.md R133): the seven bytes before the last of LENGTH, and then the
payload by induction.
-/
namespace Sys2Proof.Proofs
open Sys2Proof.Machine

/-- One accepted byte of a run. -/
theorem run_consume_cons {s : State} {b : Byte} {r : Regs} (hs : Spec.accepts s) (hr : s.regs.consume s.cfg b = r)
    (bytes : List Byte) :
    run ((b :: bytes).map .consumeByte) s = run (bytes.map .consumeByte) (Spec.after s r r.status 0) :=
  run_cons_of_exec (exec_consumeByte_of_accepts hs hr) _

theorem accepts_of_building {s : State} (h : s.regs.status = .packetBuilding) : Spec.accepts s := .inr (by simp [h])

/-- A field received low byte first, then high byte, is the field sent. -/
theorem field_of_bytes (h : Half) : ((Spec.hi h).setWidth 16 <<< 8) ||| ((Spec.lo h).setWidth 16 &&& 0x00FF) = h := by
  rw [← setHigh_eq_or]
  exact (setHigh_setLow _ _).trans (highByte_append_lowByte h)

/-- The registers after the first seven bytes of a frame. -/
def headRegs (r : Regs) (req resp : Byte) (len sum : Half) : Regs :=
  { r with header := 0x5555, checksum := sum, request := req, response := resp, length := (Spec.lo len).setWidth 16,
           cursor := 7, status := .packetBuilding }

/-- What a frame's head returns. -/
abbrev buildingResults (n : Nat) : List Result := List.replicate n (.status .packetBuilding 0 none)

/-- Seven of the eight bytes before the payload, whatever the registers held (R122 to R125). -/
theorem run_head {s : State} (hc : s.regs.cursor = 0) (hst : s.regs.status ∈ [.ok, .packetBuilding, .emissionFinished])
    (req resp : Byte) (len sum : Half) (bytes : List Byte) :
    run (([0x55, 0x55, Spec.lo sum, Spec.hi sum, req, resp, Spec.lo len] ++ bytes).map .consumeByte) s =
      run (bytes.map .consumeByte) { s with regs := headRegs s.regs req resp len sum,
                                            results := buildingResults 7 ++ s.results } := by
  refine (run_consume_cons (.inr hst) (consume_headerLow hc) _).trans ?_
  refine (run_consume_cons (accepts_of_building rfl) (consume_headerHigh rfl) _).trans ?_
  refine (run_consume_cons (accepts_of_building rfl) (consume_checksumLow rfl) _).trans ?_
  refine (run_consume_cons (accepts_of_building rfl) (consume_checksumHigh rfl) _).trans ?_
  refine (run_consume_cons (accepts_of_building rfl) (consume_request rfl) _).trans ?_
  refine (run_consume_cons (accepts_of_building rfl) (consume_response rfl) _).trans ?_
  refine (run_consume_cons (accepts_of_building rfl) (consume_lengthLow rfl) _).trans ?_
  dsimp only [Spec.after]
  rw [field_of_bytes]
  rfl

/-- The registers once the rest of a payload has been received and found right. -/
def receivedRegs (r : Regs) (rest : List Byte) : Regs :=
  { r with data := r.data.writeRun r.dataCursor.toNat rest, cursor := BitVec.ofNat 32 (8 + r.length.toNat),
           dataCursor := r.length, status := .packetReceived }

/-- In the middle of a payload of which `rest` is still to come, with CHECKSUM the CRC of the window that will stand at
its end. -/
structure Receiving (cfg : Config) (r : Regs) (rest : List Byte) : Prop where
  length : r.dataCursor.toNat + rest.length = r.length.toNat
  cursor : r.cursor.toNat = 8 + r.dataCursor.toNat
  inBuffer : r.length.toNat ≤ cfg.capacity.toNat
  checksum : r.checksum = crc16 (Spec.window (receivedRegs r rest))

section
variable {cfg : Config} {r : Regs} {b : Byte} {rest : List Byte} (h : Receiving cfg r (b :: rest))
include h

theorem Receiving.lt : r.dataCursor.toNat < r.length.toNat := by
  have := h.length
  rw [List.length_cons] at this
  omega

theorem Receiving.consume :
    r.consume cfg b = { r.storePayload b with
      cursor := r.cursor + 1
      status := if r.dataCursor.toNat + 1 = r.length.toNat then
        Spec.verdict (crc16 (Spec.window (r.storePayload b))) r.checksum else .packetBuilding } := by
  have hlt := h.lt
  have hcursor := h.cursor
  have hcap := h.inBuffer
  exact consume_of_mayStore (by omega)
    ((mayStore_iff ..).mpr ⟨by simp only [headerSize]; omega, hlt, Nat.lt_of_lt_of_le hlt hcap⟩)

theorem Receiving.toNat_cursor : (r.cursor + 1).toNat = 8 + (r.dataCursor.toNat + 1) := by
  have hlt := h.lt
  have hlength := r.length.isLt
  have hcursor := h.cursor
  rw [toNat_cursor_add_one (by omega)]
  omega

/-- The window that will stand at the end is the same, seen from one byte further on. -/
theorem Receiving.receivedRegs_eq : receivedRegs (r.storePayload b).building rest = receivedRegs r (b :: rest) := by
  rw [receivedRegs, Regs.building_dataCursor, Regs.storePayload_dataCursor, toNat_dataCursor_add_one h.lt]
  rfl

theorem Receiving.building (hne : rest ≠ []) : r.consume cfg b = (r.storePayload b).building := by
  have hlength := h.length
  have hpos := List.length_pos_iff.mpr hne
  rw [List.length_cons] at hlength
  rw [h.consume, if_neg (by omega)]
  rfl

theorem Receiving.tail : Receiving cfg (r.storePayload b).building rest where
  length := by
    have hlength := h.length
    rw [List.length_cons] at hlength
    rw [Regs.building_dataCursor, Regs.storePayload_dataCursor, toNat_dataCursor_add_one h.lt]
    simp only [Regs.building_length, Regs.storePayload_length]
    omega
  cursor := by
    rw [Regs.building_dataCursor, Regs.storePayload_dataCursor, toNat_dataCursor_add_one h.lt]
    exact h.toNat_cursor
  inBuffer := h.inBuffer
  checksum := by
    rw [h.receivedRegs_eq]
    exact h.checksum

end

/-- The last byte finds the window whose CRC is CHECKSUM. -/
theorem Receiving.last {cfg : Config} {r : Regs} {b : Byte} (h : Receiving cfg r [b]) :
    r.consume cfg b = receivedRegs r [b] := by
  have hlength : r.dataCursor.toNat + 1 = r.length.toNat := h.length
  have hdata : r.dataCursor + 1 = r.length :=
    BitVec.eq_of_toNat_eq ((toNat_dataCursor_add_one h.lt).trans hlength)
  have hend : r.cursor + 1 = BitVec.ofNat 32 (8 + r.length.toNat) := by
    apply BitVec.eq_of_toNat_eq
    rw [h.toNat_cursor, hlength, BitVec.toNat_ofNat]
    omega
  have hverdict : Spec.verdict (crc16 (Spec.window (r.storePayload b))) r.checksum = .packetReceived :=
    if_pos h.checksum.symm
  rw [h.consume, if_pos hlength, hverdict, hend]
  simp only [receivedRegs, Regs.storePayload, hdata]
  rfl

/-- The rest of a payload, by induction: every byte but the last gives PacketBuilding, the last PacketReceived. -/
theorem run_payload {rest : List Byte} (hne : rest ≠ []) {s : State} (hs : Spec.accepts s)
    (h : Receiving s.cfg s.regs rest) :
    run (rest.map .consumeByte) s = .next { s with
      regs := receivedRegs s.regs rest
      results := .status .packetReceived 0 none :: (buildingResults (rest.length - 1) ++ s.results) } := by
  induction rest generalizing s with
  | nil => exact absurd rfl hne
  | cons b rest ih =>
    cases rest with
    | nil =>
      rw [run_consume_cons hs h.last]
      rfl
    | cons b' rest =>
      rw [run_consume_cons hs (h.building (by simp)), ih (by simp) (accepts_of_building rfl) h.tail]
      simp only [Spec.after, h.receivedRegs_eq, List.length_cons, Nat.add_sub_cancel, List.replicate_succ',
        List.append_assoc]
      rfl

/-- The registers after a correct frame. -/
def frameRegs (r : Regs) (req resp : Byte) (len sum : Half) (payload : List Byte) : Regs :=
  { header := 0x5555, checksum := sum, request := req, response := resp, length := len,
    data := r.data.writeRun 0 payload, cursor := BitVec.ofNat 32 (8 + len.toNat), dataCursor := len,
    status := .packetReceived }

theorem payload_writeRun {r : Regs} (hwf : r.data.wf) {payload : List Byte} (h : payload.length = r.length.toNat) :
    Spec.payload { r with data := r.data.writeRun 0 payload } = payload := by
  apply List.ext_getElem
  · simp [h]
  · intro k hk hk'
    simp [Spec.payload, Memory.read_writeRun hwf, hk']

/-- The window at the end of the frame is the one its sender took the CRC of. -/
theorem window_frameRegs {r : Regs} (hwf : r.data.wf) (req resp : Byte) {len : Half} (sum : Half) {payload : List Byte}
    (h : payload.length = len.toNat) :
    Spec.window (frameRegs r req resp len sum payload) = [req, resp, Spec.lo len, Spec.hi len] ++ payload :=
  congrArg ([req, resp, Spec.lo len, Spec.hi len] ++ ·)
    (payload_writeRun (r := { r with length := len }) hwf h)

/-- The last byte of LENGTH and the payload: the frame completes at once for an empty one, and by `run_payload` for any
other. -/
theorem run_lengthHigh {s : State} {req resp : Byte} {len sum : Half} {payload : List Byte} {r : Regs}
    (hs : s.regs = headRegs r req resp len sum) (hwf : r.data.wf) (hpayload : payload.length = len.toNat)
    (hcap : len.toNat ≤ s.cfg.capacity.toNat)
    (hsum : sum = crc16 ([req, resp, Spec.lo len, Spec.hi len] ++ payload)) :
    run ((Spec.hi len :: payload).map .consumeByte) s = .next { s with
      regs := frameRegs r req resp len sum payload
      results := .status .packetReceived 0 none :: (buildingResults len.toNat ++ s.results) } := by
  obtain ⟨cfg, _, pending, results⟩ := s
  obtain rfl := hs
  have hlen : setHigh (headRegs r req resp len sum).length (Spec.hi len) = len :=
    (setHigh_setLow _ _).trans (highByte_append_lowByte len)
  by_cases hzero : len = 0
  · subst hzero
    obtain rfl : payload = [] := List.length_eq_zero_iff.mp hpayload
    have hverdict : Spec.verdict (crc16 [req, resp, 0, 0]) sum = .packetReceived := if_pos hsum.symm
    have hr : (headRegs r req resp 0 sum).consume cfg (Spec.hi 0) = frameRegs r req resp 0 sum [] := by
      rw [consume_lengthHigh rfl, consumeLengthHigh_of_eq_zero rfl hlen]
      simp only [headRegs, hverdict]
      rfl
    exact run_consume_cons (accepts_of_building rfl) hr []
  · have hr := (consume_lengthHigh (cfg := cfg) rfl).trans (consumeLengthHigh_of_ne_zero rfl (hlen ▸ hzero))
    have hpos : 0 < len.toNat := Nat.pos_of_ne_zero fun h => hzero (BitVec.eq_of_toNat_eq h)
    have hne : payload ≠ [] := List.length_pos_iff.mp (hpayload ▸ hpos)
    rw [hlen] at hr
    refine (run_consume_cons (accepts_of_building rfl) hr _).trans ?_
    refine (run_payload hne (accepts_of_building rfl) ⟨?_, rfl, hcap, ?_⟩).trans ?_
    · exact (Nat.zero_add _).trans hpayload
    · exact hsum.trans (congrArg crc16 (window_frameRegs hwf req resp sum hpayload).symm)
    · obtain ⟨n, hn⟩ : ∃ n, len.toNat = n + 1 := ⟨_, (Nat.succ_pred_eq_of_pos hpos).symm⟩
      rw [hpayload, hn, Nat.add_sub_cancel, buildingResults, buildingResults, List.replicate_succ', List.append_assoc]
      rfl

/-- Settles O25: the head (`run_head`), then the last byte of LENGTH and the payload (`run_lengthHigh`). -/
theorem correctFrameIsReceivedExactlyOnItsLastByte : Obligations.CorrectFrameIsReceivedExactlyOnItsLastByte := by
  intro s req resp len sum payload hwf hc hst hpayload hcap hsum
  have hrun := (run_head hc hst req resp len sum (Spec.hi len :: payload)).trans
    (run_lengthHigh rfl hwf hpayload hcap hsum)
  refine ⟨_, hrun, ?_, rfl, rfl, rfl, fun a => ?_⟩
  · rw [Nat.add_comm, ← List.replicate_append_replicate, List.append_assoc]
  · refine (Memory.read_writeRun hwf 0 payload a).trans ?_
    simp [hpayload]

end Sys2Proof.Proofs
end

section
/-!
Emission: NEXT_BYTE, FRAME_BYTE, and that the two views of the frame agree (42_emission.md R150, R154, R157).
-/
namespace Sys2Proof.Proofs
open Sys2Proof.Machine

section
variable {s : State}

theorem exec_nextByte_of_end (h : 8 + s.regs.length.toNat ≤ s.regs.cursor.toNat) :
    exec .nextByte s = .next (Spec.after s { s.regs with status := .emissionFinished } .emissionFinished 0) :=
  exec_eq_after (if_neg fun hf => Nat.not_lt.mpr h hf.1) (if_pos h) (if_pos h) (if_pos h) rfl

theorem exec_nextByte_of_lt (hframe : s.regs.cursor.toNat < 8 + s.regs.length.toNat)
    (hbuffer : s.regs.cursor.toNat < 8 + s.cfg.capacity.toNat) :
    exec .nextByte s = .next (Spec.after s { s.regs with cursor := s.regs.cursor + 1, status := .ok } .ok
      (((Spec.frame s.regs).getD s.regs.cursor.toNat 0).setWidth 32)) :=
  have hmore := Nat.not_le.mpr hframe
  exec_eq_after (if_neg fun hf => Nat.not_le.mpr hbuffer hf.2) (if_neg hmore) (if_neg hmore) (if_neg hmore) rfl

theorem exec_frameByte_of_lt {index : BitVec 24} (hframe : index.toNat < 8 + s.regs.length.toNat)
    (hbuffer : index.toNat < 8 + s.cfg.capacity.toNat) :
    exec (.frameByte index) s =
      .next (Spec.after s s.regs .ok (((Spec.frame s.regs).getD index.toNat 0).setWidth 32)) :=
  exec_of_no_fault ((if_neg (Nat.not_le.mpr hframe)).trans (if_neg (Nat.not_le.mpr hbuffer)))

end

theorem encodeWord_frameByte (index : BitVec 24) : encodeWord (.frameByte index) = 0x22000000 ||| index.setWidth 32 :=
  calc (0x22#8 ++ index : Word) = (0x22#8 ++ index : Word).setWidth 32 := (BitVec.setWidth_eq _).symm
    _ = 0x22000000 ||| index.setWidth 32 := BitVec.setWidth_append_eq_shiftLeft_setWidth_or

/-- Settles O27: by where CURSOR stands to the frame's end and the buffer's. -/
theorem nextByteEmitsTheFrameByteAtCursor : Obligations.NextByteEmitsTheFrameByteAtCursor :=
  ⟨by decide, fun _ => ⟨exec_nextByte_of_end, exec_nextByte_of_lt, fun hframe hbuffer =>
    exec_of_fault (if_pos ⟨hframe, hbuffer⟩)⟩⟩

/-- Settles O28: by where the index stands to the frame's end and the buffer's. -/
theorem frameByteReadsTheFrame : Obligations.FrameByteReadsTheFrame := fun _ index =>
  ⟨encodeWord_frameByte index, exec_frameByte_of_lt, fun hend => exec_of_fault (if_pos hend),
    fun hframe hbuffer => exec_of_fault ((if_neg (Nat.not_le.mpr hframe)).trans (if_pos hbuffer))⟩

/-! ## Runs of NEXT_BYTE -/

@[simp] theorem frame_length (r : Regs) : (Spec.frame r).length = 8 + r.length.toNat := by
  rw [Spec.frame, List.length_append, window_length, ← Nat.add_assoc]
  rfl

/-- What NEXT_BYTE returns with a byte. -/
abbrev byteResult (b : Byte) : Result := .status .ok (b.setWidth 32) none

/-- `n` NEXT_BYTEs inside the frame return its next `n` bytes, and write only CURSOR and STATUS. -/
theorem run_nextByte (n : Nat) {s : State} (hcap : s.regs.length.toNat ≤ s.cfg.capacity.toNat)
    (hn : s.regs.cursor.toNat + n ≤ 8 + s.regs.length.toNat) :
    ∃ st, run (List.replicate n .nextByte) s = .next { s with
      regs := { s.regs with cursor := s.regs.cursor + BitVec.ofNat 32 n, status := st }
      results := ((((Spec.frame s.regs).drop s.regs.cursor.toNat).take n).map byteResult).reverse ++ s.results } := by
  induction n generalizing s with
  | zero => exact ⟨s.regs.status, by simp [run]⟩
  | succ n ih =>
    have hlt : s.regs.cursor.toNat < (Spec.frame s.regs).length := by rw [frame_length]; omega
    have hbound := s.regs.length.isLt
    have hnext : (s.regs.cursor + 1).toNat = s.regs.cursor.toNat + 1 := toNat_cursor_add_one (by omega)
    have hget : (Spec.frame s.regs).getD s.regs.cursor.toNat 0 = (Spec.frame s.regs)[s.regs.cursor.toNat] :=
      List.getD_eq_getElem _ _ hlt
    have hstep := exec_nextByte_of_lt (s := s) (by omega) (by omega)
    rw [hget] at hstep
    have hmore : (s.regs.cursor + 1).toNat + n ≤ 8 + s.regs.length.toNat := by rw [hnext]; omega
    obtain ⟨st, ih⟩ := ih (s := Spec.after s { s.regs with cursor := s.regs.cursor + 1, status := .ok } .ok
      ((Spec.frame s.regs)[s.regs.cursor.toNat].setWidth 32)) hcap hmore
    have hcursor : s.regs.cursor + 1 + BitVec.ofNat 32 n = s.regs.cursor + BitVec.ofNat 32 (n + 1) := by
      rw [Nat.add_comm n 1, BitVec.ofNat_add, BitVec.add_assoc]
      rfl
    refine ⟨st, ?_⟩
    rw [List.replicate_succ, run_cons_of_exec hstep, ih, List.drop_eq_getElem_cons hlt, List.take_succ_cons,
      List.map_cons, List.reverse_cons, List.append_assoc, ← hcursor, ← hnext]
    rfl

/-- All bytes of the frame, from CURSOR = 0. -/
theorem run_nextByte_frame {s : State} (hc : s.regs.cursor = 0) (hcap : s.regs.length.toNat ≤ s.cfg.capacity.toNat) :
    ∃ st, run (List.replicate (8 + s.regs.length.toNat) .nextByte) s = .next { s with
      regs := { s.regs with cursor := BitVec.ofNat 32 (8 + s.regs.length.toNat), status := st }
      results := ((Spec.frame s.regs).map byteResult).reverse ++ s.results } := by
  obtain ⟨st, h⟩ := run_nextByte (8 + s.regs.length.toNat) hcap (by simp [hc])
  refine ⟨st, h.trans ?_⟩
  have hall : (Spec.frame s.regs).take (8 + s.regs.length.toNat) = Spec.frame s.regs :=
    List.take_of_length_le (by simp)
  have hzero : s.regs.cursor = 0#32 := hc
  simp only [hzero, BitVec.toNat_zero, List.drop_zero, BitVec.zero_add, hall]

/-- Settles O30: the run of NEXT_BYTEs returns the frame (`run_nextByte_frame`) and then stands at its end; FRAME_BYTE
reads the same frame. -/
theorem cursorViewAndBulkViewAgree : Obligations.CursorViewAndBulkViewAgree := by
  intro s hc hcap
  have hlength := s.regs.length.isLt
  constructor
  · obtain ⟨st, hrun⟩ := run_nextByte_frame hc hcap
    rw [List.replicate_succ', run_append hrun]
    refine ⟨_, run_cons_of_exec (exec_nextByte_of_end ?_) [], rfl, rfl⟩
    show 8 + s.regs.length.toNat ≤ (BitVec.ofNat 32 (8 + s.regs.length.toNat)).toNat
    rw [BitVec.toNat_ofNat]
    omega
  · intro o ho
    have hindex : (BitVec.ofNat 24 o).toNat = o := by
      rw [BitVec.toNat_ofNat]
      omega
    have h := exec_frameByte_of_lt (s := s) (index := BitVec.ofNat 24 o) (by omega) (by omega)
    rwa [hindex] at h

end Sys2Proof.Proofs
end

section
/-!
PACK, the helpers as sequences, and which commands keep a packet packed (43_packing_and_response.md R170, R171,
30_encoding.md R83).
-/
namespace Sys2Proof.Proofs
open Sys2Proof.Machine

/-- `Spec.packed`, of the registers and the parameters it speaks of. -/
structure PackedRegs (cfg : Config) (r : Regs) : Prop where
  length : r.length.toNat ≤ cfg.capacity.toNat
  header : r.header = 0x5555
  checksum : r.checksum = crc16 (Spec.window r)

theorem packed_iff (s : State) : Spec.packed s ↔ PackedRegs s.cfg s.regs :=
  ⟨fun ⟨hlength, hheader, hchecksum⟩ => ⟨hlength, hheader, hchecksum⟩,
    fun ⟨hlength, hheader, hchecksum⟩ => ⟨hlength, hheader, hchecksum⟩⟩

section
variable {cfg : Config} {r : Regs}

/-- What every packing command ends with (R170). -/
theorem packedRegs_stamp (h : r.length.toNat ≤ cfg.capacity.toNat) : PackedRegs cfg r.stamp :=
  ⟨h, rfl, by rw [Regs.stamp_checksum, windowBytes_eq_window, window_stamp]⟩

theorem packedRegs_stamp_appended {bytes : List Byte} (h : Fits cfg r bytes) :
    PackedRegs cfg (appended r bytes).stamp :=
  packedRegs_stamp (by rwa [appended_length_toNat cfg h])

theorem appended_nil (r : Regs) : appended r [] = r := by
  simp [appended, Memory.writeRun]

theorem PackedRegs.after (h : PackedRegs cfg r) {i : Instr} {s : State} (hcfg : s.cfg = cfg) (hregs : s.regs = r)
    (hi : Spec.mayUnpack i s = false) : PackedRegs cfg (regsAfter i cfg r) := by
  subst hcfg hregs
  obtain ⟨hlength, hheader, hchecksum⟩ := h
  have hsame : PackedRegs s.cfg s.regs := ⟨hlength, hheader, hchecksum⟩
  cases i with
  | setRequest | setResponse | consumeByte | resetLazy | resetFull => cases hi
  | checksum flag =>
    cases flag with
    | false => exact hsame
    | true => exact ⟨hlength, hheader, rfl⟩
  | pack => exact packedRegs_stamp hlength
  | setPayload bytes =>
    obtain rfl : bytes = [] := by simpa [Spec.mayUnpack] using hi
    simp only [regsAfter, appended_nil, ite_self]
    exact hsame
  | respondWithData request bytes =>
    have hfits : Fits s.cfg s.regs bytes := Nat.le_of_not_lt (of_decide_eq_false hi)
    simp only [regsAfter, if_pos hfits]
    exact packedRegs_stamp (packedRegs_stamp_appended hfits).length
  | respondWithError => exact packedRegs_stamp (Nat.zero_le _)
  | respondWithIdentity ascii record =>
    simp only [regsAfter]
    split
    next hfits => exact packedRegs_stamp_appended hfits
    · exact hsame
  | nextByte =>
    simp only [regsAfter]
    split
    · exact ⟨hlength, hheader, hchecksum⟩
    · exact ⟨hlength, hheader, hchecksum⟩
  | _ => exact ⟨hlength, hheader, hchecksum⟩

end

/-- Settles O36: a fault keeps the registers; any other outcome writes nothing packing reads, or packs again
(`PackedRegs.regsAfter`). -/
theorem onlyListedCommandsUnpack : Obligations.OnlyListedCommandsUnpack := by
  intro i s t hs hi ht
  obtain rfl := exec_eq_next_iff.mp ht
  rw [packed_iff] at hs ⊢
  rw [nextState_cfg]
  obtain h | h := nextState_regs i s
  · rwa [h]
  · rw [h]
    exact hs.after rfl rfl hi

theorem exec_pack_of_le {s : State} (h : s.regs.length.toNat ≤ s.cfg.capacity.toNat) :
    exec .pack s = .next (Spec.after s s.regs.stamp .ok 0) :=
  exec_of_no_fault (if_neg (Nat.not_lt.mpr h))

/-- Settles O31: PACK's one cause of a fault is a window past the buffer. -/
theorem packStampsChecksumAndHeader : Obligations.PackStampsChecksumAndHeader := by
  refine ⟨by decide, fun s => ⟨fun h => ⟨_, exec_pack_of_le h, ?_, ?_⟩, fun h => exec_of_fault (if_pos h)⟩⟩
  · exact congrArg (Spec.after s · .ok 0) (stamp_eq s.regs)
  · exact (packed_iff _).mpr (packedRegs_stamp h)

/-! ## RESPOND_WITH_IDENTITY (44_dataid.md R192) -/

section
variable {s : State} {record : List Byte} (hname : record.getD 29 0 = 0)
include hname

theorem exec_respondWithIdentity_of_fits (hfits : Fits s.cfg s.regs record) :
    exec (.respondWithIdentity true record) s = .next (Spec.after s (appended s.regs record).stamp .ok 0) :=
  exec_eq_after (if_neg (not_not.mpr hname)) (if_pos hfits) (if_pos hfits) rfl rfl

theorem exec_respondWithIdentity_of_overflow (hover : ¬ Fits s.cfg s.regs record) :
    exec (.respondWithIdentity true record) s = .next (Spec.after s s.regs .packetOverflow 0) :=
  exec_eq_after (if_neg (not_not.mpr hname)) (if_neg hover) (if_neg hover) rfl rfl

end

theorem encodeWord_respondWithIdentity (ascii : Bool) (record : List Byte) :
    encodeWord (.respondWithIdentity ascii record) = if ascii then 0x40010020 else 0x40000020 := by
  revert ascii
  exact (by decide : ∀ ascii, encodeWord (.respondWithIdentity ascii []) = if ascii then 0x40010020 else 0x40000020)

/-- Settles O37: Unsupported, then NameTooLong, then by whether the record fits; what is packed is the window after the
append (`stamp_eq`). -/
theorem respondWithIdentityAppendsTheRecordAndPacks : Obligations.RespondWithIdentityAppendsTheRecordAndPacks := by
  intro s record hwf hrecord
  refine ⟨encodeWord_respondWithIdentity true record, encodeWord_respondWithIdentity false record,
    exec_of_fault rfl, fun hname => exec_of_fault (if_pos hname), fun hname hover => ?_,
    fun hname hfits => ?_⟩
  · exact exec_respondWithIdentity_of_overflow hname (by rw [Fits, hrecord]; omega)
  · rw [← hrecord] at hfits
    refine ⟨_, exec_respondWithIdentity_of_fits hname hfits, congrArg (Spec.after s · .ok 0) (stamp_eq _), ?_,
      fun a => (appended_read hwf a).trans (by rw [hrecord])⟩
    exact (appended_length_toNat s.cfg hfits).trans (by rw [hrecord])

/-- Settles O35: each sequence is run command by command and ends in the same registers. -/
theorem helpersEqualTheirSequences : Obligations.HelpersEqualTheirSequences := by
  intro s
  refine ⟨fun request bytes hfits => ?_, fun request code => ?_, fun record hrecord hname hroom => ?_⟩
  · have hset := exec_setPayload_of_fits (s := Spec.after s { s.regs with request := request } .ok 0) hfits
    have hpack {t : State} (hcfg : t.cfg = s.cfg) (hlength : t.regs.length = (appended s.regs bytes).length) :
        exec .pack t = .next (Spec.after t t.regs.stamp .ok 0) :=
      exec_pack_of_le (by rw [hcfg, hlength]; exact (packedRegs_stamp_appended hfits).length)
    have hrun : run [.setRequest request, .setPayload bytes, .setResponse 0x00, .pack] s = _ :=
      (run_cons_of_exec (exec_setRequest ..) _).trans <| (run_cons_of_exec hset _).trans <|
        (run_cons_of_exec (exec_setResponse ..) _).trans (run_cons_of_exec (hpack (by rfl) (by rfl)) [])
    exact ⟨_, _, exec_respondWithData_of_fits request hfits, hrun, rfl⟩
  · have hcodes : run [.setRequest request, .setResponse code] s = _ :=
      (run_cons_of_exec (exec_setRequest ..) _).trans (run_cons_of_exec (exec_setResponse ..) [])
    refine ⟨_, _, _, exec_respondWithError request code s, hcodes, exec_pack_of_le ?_, rfl⟩
    exact Nat.zero_le _
  · rw [← hrecord] at hroom
    have hpack := exec_pack_of_le (s := Spec.after s (appended s.regs record) .ok 0)
      (packedRegs_stamp_appended hroom).length
    have hrun : run [.setPayload record, .pack] s = _ :=
      (run_cons_of_exec (exec_setPayload_of_fits hroom) _).trans (run_cons_of_exec hpack [])
    exact ⟨_, _, exec_respondWithIdentity_of_fits hname hroom, hrun, rfl⟩

end Sys2Proof.Proofs
end

section
/-!
The DataId codec: the record, DATAID_DECODE, and an identity reply decoded where it was built (44_dataid.md R190 to
R198).
-/
namespace Sys2Proof.Proofs
open Sys2Proof.Machine

theorem encodeWord_dataidDecode : encodeWord .dataidDecode = 0x41000000 := by decide

/-- Inside the payload and the buffer, the record is the first 32 bytes of DATA (R196). -/
theorem exec_dataidDecode_of_le {s : State} (hlength : 32 ≤ s.regs.length.toNat) (hcap : 32 ≤ s.cfg.capacity.toNat) :
    exec .dataidDecode s = .next { s with
      results := .status .ok 0 (some ((List.range 32).map s.regs.data.read)) :: s.results } :=
  exec_of_no_fault ((if_neg (Nat.not_lt.mpr hlength)).trans (if_neg (Nat.not_lt.mpr hcap)))

/-- Settles O38: ShortPayload, then LengthExceedsCapacity, then the record. -/
theorem dataidDecodeReturnsTheFirst32Bytes : Obligations.DataidDecodeReturnsTheFirst32Bytes := by
  refine ⟨encodeWord_dataidDecode, fun s => ⟨fun hshort => exec_of_fault (if_pos hshort), fun hlength hcap => ?_,
    exec_dataidDecode_of_le⟩⟩
  exact exec_of_fault ((if_neg (Nat.not_lt.mpr hlength)).trans (if_pos hcap))

/-! ## The record -/

/-- The name field of a record: the name padded with zeros to 30 bytes (R190). -/
def nameField (name : List Byte) : List Byte := name ++ List.replicate (30 - name.length) 0

theorem nameField_length {name : List Byte} (h : name.length ≤ 29) : (nameField name).length = 30 := by
  simp only [nameField, List.length_append, List.length_replicate]
  omega

theorem getD_nameField (name : List Byte) (k : Nat) : (nameField name).getD k 0 = name.getD k 0 := by
  by_cases h : k < name.length
  · rw [nameField, List.getD_append _ _ _ _ h]
  · rw [nameField, List.getD_append_right _ _ _ _ (Nat.le_of_not_lt h), List.getD_eq_getElem?_getD,
      List.getElem?_getD_replicate_default_eq, List.getD_eq_default _ _ (Nat.le_of_not_lt h)]

theorem dataIdRecord_of_le {name : List Byte} (h : name.length ≤ 29) (maxSize : Half) :
    dataIdRecord name maxSize = some (nameField name ++ [lowByte maxSize, highByte maxSize]) :=
  if_pos (Nat.lt_succ_of_le h)

/-- Settles O39: the record is the padded name and the two bytes of `max_size`, each found at its place. -/
theorem recordHoldsNameAndMaxSize : Obligations.RecordHoldsNameAndMaxSize := by
  intro name maxSize
  refine ⟨fun hlong => if_neg (Nat.not_lt.mpr hlong), fun h => ⟨_, dataIdRecord_of_le h maxSize, ?_⟩⟩
  have hfield := nameField_length h
  have hname (k : Nat) (hk : k < 30) :
      (nameField name ++ [lowByte maxSize, highByte maxSize]).getD k 0 = name.getD k 0 := by
    rw [List.getD_append _ _ _ _ (by omega), getD_nameField]
  have hsize (k : Nat) :
      (nameField name ++ [lowByte maxSize, highByte maxSize]).getD (30 + k) 0 =
        [lowByte maxSize, highByte maxSize].getD k 0 := by
    rw [List.getD_append_right _ _ _ _ (by omega), hfield, Nat.add_sub_cancel_left]
  refine ⟨by simp [hfield], ?_, hname, hsize 0, hsize 1, by simp [recordName, hfield, dataIdNameSize], ?_⟩
  · rw [hname 29 (by omega), List.getD_eq_default _ _ h]
  · rw [recordMaxSize]
    exact (congrArg₂ (· ++ ·) (hsize 1) (hsize 0)).trans (highByte_append_lowByte maxSize)

/-! ## The reply decoded -/

/-- Bytes written at the start of the buffer read back as one run. -/
theorem map_read_writeRun {m : Memory} (hwf : m.wf) {bytes : List Byte} {n : Nat} (h : bytes.length = n) :
    (List.range n).map (m.writeRun 0 bytes).read = bytes := by
  apply List.ext_getElem
  · simp [h]
  · intro k _ hk
    simp [Memory.read_writeRun hwf, hk]

section
variable {s : State} {record : List Byte} (hzero : s.regs.length = 0) (hrecord : record.length = 32)
include hzero hrecord

theorem fits_of_length_zero (hcap : 32 ≤ s.cfg.capacity.toNat) : Fits s.cfg s.regs record := by
  rw [Fits, hzero, hrecord]
  exact hcap

/-- A record appended to an empty payload is the payload. -/
theorem appended_length_of_length_zero (hcap : 32 ≤ s.cfg.capacity.toNat) :
    (appended s.regs record).length.toNat = 32 := by
  rw [appended_length_toNat s.cfg (fits_of_length_zero hzero hrecord hcap), hzero, hrecord]
  rfl

theorem map_read_appended_of_length_zero (hwf : s.regs.data.wf) :
    (List.range 32).map (appended s.regs record).data.read = record := by
  rw [appended, hzero]
  exact map_read_writeRun hwf hrecord

end

/-- Settles O40: the record stands at the start of DATA, where DATAID_DECODE reads it. -/
theorem identityReplyDecodesToItsRecord : Obligations.IdentityReplyDecodesToItsRecord := by
  intro s record hwf hzero hcap hrecord hname
  have hreply := exec_respondWithIdentity_of_fits hname (fits_of_length_zero hzero hrecord hcap)
  have hdecode := exec_dataidDecode_of_le (s := Spec.after s (appended s.regs record).stamp .ok 0)
    (appended_length_of_length_zero hzero hrecord hcap).ge hcap
  refine ⟨_, (run_cons_of_exec hreply _).trans (run_cons_of_exec hdecode []), ?_⟩
  exact congrArg (fun bytes => .status .ok 0 (some bytes) :: .status .ok 0 none :: s.results)
    (map_read_appended_of_length_zero hzero hrecord hwf)

end Sys2Proof.Proofs
end

section
/-!
Frames over the wire: what one engine emits, a new one receives (41_construction.md R134, 44_dataid.md R198).
-/
namespace Sys2Proof.Proofs
open Sys2Proof.Machine

/-- The bytes of the last `n` results, oldest first: what the host passes on. -/
abbrev wireBytes (n : Nat) (results : List Result) : List Byte :=
  (results.take n).reverse.map fun res => res.r1.setWidth 8

theorem wireBytes_byteResults {n : Nat} {bytes : List Byte} (h : bytes.length = n) (results : List Result) :
    wireBytes n ((bytes.map byteResult).reverse ++ results) = bytes := by
  have hbyte (b : Byte) : (b.setWidth 32).setWidth 8 = b := by simp
  rw [wireBytes, List.take_left' (by simp [h]), List.reverse_reverse, List.map_map]
  exact (List.map_congr_left fun b _ => hbyte b).trans (List.map_id _)

/-- RESET_CURSOR and a NEXT_BYTE for each byte pass the frame on. -/
theorem run_emission {s : State} {n : Nat} (hn : 8 + s.regs.length.toNat = n)
    (hcap : s.regs.length.toNat ≤ s.cfg.capacity.toNat) :
    ∃ u, run (.resetCursor :: List.replicate n .nextByte) s = .next u ∧
      wireBytes n u.results = Spec.frame s.regs ∧ u.regs.checksum = s.regs.checksum := by
  subst hn
  obtain ⟨st, hrun⟩ := run_nextByte_frame (s := Spec.after s { s.regs with cursor := 0 } .ok 0) rfl hcap
  exact ⟨_, (run_cons_of_exec (exec_resetCursor s) _).trans hrun, wireBytes_byteResults (frame_length _) _, rfl⟩

/-- A new engine receives the frame of a packed packet that fits its buffer (R133). -/
theorem run_reception {sender cfg : Config} {r : Regs} (hr : PackedRegs sender r)
    (hcap : r.length.toNat ≤ cfg.capacity.toNat) :
    ∃ t, run ((Spec.frame r).map .consumeByte) (State.init cfg) = .next t ∧ t.cfg = cfg ∧
      t.regs = { header := 0x5555, checksum := r.checksum, request := r.request, response := r.response,
                 length := r.length, data := t.regs.data, cursor := BitVec.ofNat 32 (8 + r.length.toNat),
                 dataCursor := r.length, status := .packetReceived } ∧
      ∀ a, a < r.length.toNat → t.regs.data.read a = r.data.read a := by
  obtain ⟨t, hrun, -, hcfg, -, hregs, hread⟩ := correctFrameIsReceivedExactlyOnItsLastByte (State.init cfg) r.request
    r.response r.length r.checksum (Spec.payload r) Memory.wf_nil rfl List.mem_cons_self (payload_length r) hcap
    hr.checksum
  refine ⟨t, ?_, hcfg, hregs, fun a ha => ?_⟩
  · rw [Spec.frame, hr.header]
    exact hrun
  · rw [hread a, if_pos ha]
    simp [Spec.payload, ha]

/-- Settles O55: the packed frame emitted (`run_emission`) and received (`run_reception`). -/
theorem packedFrameRoundTripsOverTheWire : Obligations.PackedFrameRoundTripsOverTheWire := by
  intro s cfg hsender hreceiver
  obtain ⟨u, hemit, hwire, hchecksum⟩ := run_emission (s := Spec.after s s.regs.stamp .ok 0) rfl hsender
  obtain ⟨t, hreceive, -, hregs, hread⟩ := run_reception (packedRegs_stamp hsender) hreceiver
  refine ⟨u, t, (run_cons_of_exec (exec_pack_of_le hsender) _).trans hemit, ?_, ?_⟩
  · exact (congrArg (fun bytes => run (bytes.map .consumeByte) (State.init cfg)) hwire).trans hreceive
  · rw [hchecksum, hregs]
    exact ⟨rfl, rfl, rfl, rfl, hread, rfl, rfl⟩

/-- Settles O56: the reply's frame is emitted and received as any packed one, and the receiver's first 32 payload bytes
are the record. -/
theorem identityRoundTripsOverTheWire : Obligations.IdentityRoundTripsOverTheWire := by
  intro s cfg record hwf hzero hsender hreceiver hrecord hname
  have hfits := fits_of_length_zero hzero hrecord hsender
  have hlength := appended_length_of_length_zero hzero hrecord hsender
  have hpacked := packedRegs_stamp_appended hfits
  have hreply := exec_respondWithIdentity_of_fits hname hfits
  obtain ⟨u, hemit, hwire, -⟩ := run_emission (s := Spec.after s (appended s.regs record).stamp .ok 0) (n := 40)
    (congrArg (8 + ·) hlength) hpacked.length
  obtain ⟨t, hreceive, hcfg, hregs, hread⟩ := run_reception (cfg := cfg) hpacked (hlength.trans_le hreceiver)
  have htlength : t.regs.length.toNat = 32 := by rw [hregs]; exact hlength
  have hsame : (List.range 32).map t.regs.data.read = record := by
    rw [← map_read_appended_of_length_zero hzero hrecord hwf]
    exact List.map_congr_left fun a ha => hread a (hlength.symm ▸ List.mem_range.mp ha)
  have hdecode := exec_dataidDecode_of_le (s := t) htlength.ge (hcfg ▸ hreceiver)
  rw [hsame] at hdecode
  have hreceive : run ((wireBytes 40 u.results).map .consumeByte) (State.init cfg) = .next t :=
    (congrArg (fun bytes => run (bytes.map .consumeByte) (State.init cfg)) hwire).trans hreceive
  exact ⟨u, _, (run_cons_of_exec hreply _).trans hemit, (run_append hreceive).trans (run_cons_of_exec hdecode []),
    rfl⟩

end Sys2Proof.Proofs
end
